-- ==== Sys2Proof/Word.lean ====
section
/-! DEFINITION. The word types of the block: key words, digits and host addresses (00_scope.md R5, section 5). -/

namespace Sys2Proof

/-- A 32-bit word: a key, a counter, a register of the control space (KEYW = CW = 32, R5). -/
abbrev Word := BitVec 32

/-- A digit of a key, 8 bits wide (DIGW = 8, R5). It is used directly as a counter index (R75). -/
abbrev Digit := BitVec 8

/-- A host address: SPACE in bits 33:32, INDEX in bits 31:0 (R31). -/
abbrev HostAddr := BitVec 34

end Sys2Proof
end

