-- ==== Sys2Proof/Config.lean ====
section
/-! DEFINITION. The implementation parameters the spec leaves open (00_scope.md R5) and the free value for
the contents of the key memories after a reset (10_state.md R28, 93_implementation_defined.md U1). -/

namespace Sys2Proof

/-- The two open parameters of R5. They are fixed for one engine: no step writes them (log 7). -/
structure Config where
  /-- NMAX: the capacity of each key memory in words; CAP reads it (R27). -/
  nmax : Word
  /-- ASSERT_EN: whether the debug assertions of PassEntry are built in (R98). -/
  assertEn : Bool
  deriving DecidableEq, Repr

/-- R5's bound on NMAX, 1 ≤ NMAX ≤ 2^32 − 1. The upper bound is the width of `nmax`. -/
abbrev Config.wf (c : Config) : Prop := 1 ≤ c.nmax.toNat

/-- FREE VALUE (R28, U1; log 2). `resetWord k b i` is what word `i` of key memory `b` (false = BUF0,
true = BUF1) holds after the `k`-th reset until it is written. It has no body: nothing can be proved of its
values, so a claim holds whatever they are. -/
opaque Config.resetWord : Nat → Bool → Nat → Word

/-- The parameter values `State.reset` carries. DESIGN CHOICE (log 7): NMAX = 16 is the value of the spec's
own test programs (95_test_vectors.md, part 3); ASSERT_EN = 1. No statement rests on them. -/
def Config.initial : Config := { nmax := 16, assertEn := true }

end Sys2Proof
end

