-- ==== Sys2Proof/Syntax.lean ====
section
/-! DEFINITION. The operations of spec/opcode_table.json, one constructor a row: the two host commands of
30_encoding.md R51 and the four sequencer micro-operations of R56. -/

namespace Sys2Proof

/-- The block's operations. `sort` and `pass` are issued by a host write to CMD; the other four are selected
by the PHASE register and cannot be issued by the host (R56). -/
inductive Instr where
  /-- SORT: sort the first LEN words of BUF0 (R63). -/
  | sort
  /-- PASS r, s: one counting-sort pass on digit `r` from BUFs (R64). `r` has the width of the ROUND register
  it is loaded into (R62); `WellFormed` holds it to 0..3. `src` is s: false = BUF0, true = BUF1. -/
  | pass (r : BitVec 3) (src : Bool)
  /-- COUNT: histogram accumulation (R77). -/
  | count
  /-- PREFIX: prefix sum (R79). -/
  | prefixSum
  /-- SCATTER: repartitioning (R81). -/
  | scatter
  /-- CLEAR: counter reset (R82). -/
  | clear
  deriving DecidableEq, Repr

end Sys2Proof
end

