-- ==== Sys2Proof/WellFormed.lean ====
section
/-! DEFINITION. Which terms of `Instr` are instructions of the block. -/

namespace Sys2Proof

/-- The one check: PASS's round index is 0..3 (R50 "round index r, 0..3", R64). The other operations have no
operands. -/
def wellFormed : Instr → Bool
  | .sort => true
  | .pass r _ => r.toNat ≤ 3
  | .count => true
  | .prefixSum => true
  | .scatter => true
  | .clear => true

/-- A well-formed instruction. -/
abbrev WellFormed (i : Instr) : Prop := wellFormed i = true

end Sys2Proof
end

