-- ==== Sys2Proof/Decode.lean ====
section
/-! DEFINITION. The decoder, total on any word, and the encoder after it (30_encoding.md R50 to R56). -/

namespace Sys2Proof

/-! ## PHASE codes (10_state.md R16, 30_encoding.md R56) -/

/-- PHASE code 0, IDLE. -/
abbrev phaseIdle : BitVec 3 := 0
/-- PHASE code 1, COUNT. -/
abbrev phaseCount : BitVec 3 := 1
/-- PHASE code 2, PREFIX. -/
abbrev phasePrefixSum : BitVec 3 := 2
/-- PHASE code 3, SCATTER. -/
abbrev phaseScatter : BitVec 3 := 3
/-- PHASE code 4, CLEAR. -/
abbrev phaseClear : BitVec 3 := 4

/-! ## Decoding -/

/-- `Decode` of R55: the command a word written to CMD stands for; `none` is ILLEGAL (R53). -/
def decodeCommand (w : Word) : Option Instr :=
  if w = 0x00000001#32 then some .sort
  else if w &&& 0xFFFFFF8F#32 = 0x00000002#32 then
    some (.pass ((w.extractLsb' 4 2).setWidth 3) (w.getLsbD 6))
  else none

/-- The micro-operation a PHASE code stands for (R56). IDLE and the unreachable codes 5 to 7 name none (R16). -/
def decodePhase (p : BitVec 3) : Option Instr :=
  if p = phaseCount then some .count
  else if p = phasePrefixSum then some .prefixSum
  else if p = phaseScatter then some .scatter
  else if p = phaseClear then some .clear
  else none

/-- An encoded operation: a CMD32 command word or a 3-bit PHASE code, the two formats of the opcode table. -/
inductive Code where
  | command (w : Word)
  | phase (p : BitVec 3)
  deriving DecidableEq, Repr

/-- The decoder over both formats. -/
def decode : Code → Option Instr
  | .command w => decodeCommand w
  | .phase p => decodePhase p

/-! ## Encoding -/

/-- `Encode` of R55 for a PASS: 0x2 + 16·r + 64·s. -/
def passWord (r : BitVec 3) (src : Bool) : Word :=
  0x00000002#32 + 16#32 * r.setWidth 32 + 64#32 * (BitVec.ofBool src).setWidth 32

/-- The encoder (R51, R55, R56). -/
def encode : Instr → Code
  | .sort => .command 0x00000001#32
  | .pass r src => .command (passWord r src)
  | .count => .phase phaseCount
  | .prefixSum => .phase phasePrefixSum
  | .scatter => .phase phaseScatter
  | .clear => .phase phaseClear

/-! ## The opcode table's numbering of words (log 14) -/

/-- The PHASE code a table word of a micro-operation carries: the 3-bit code itself where the row's pattern is
3 bits (up to a byte), or bits 14:12 of a 16-bit word where it is laid out as STATUS shows it (R56). Any other
word carries none. -/
def tablePhase (nbits w : Nat) : Option (BitVec 3) :=
  if nbits ≤ 8 then (if w < 8 then some (BitVec.ofNat 3 w) else none)
  else if w % 4096 = 0 ∧ w / 4096 < 8 then some (BitVec.ofNat 3 (w / 4096)) else none

/-- The instruction the decoder reads from a table word of `nbits` bits: more than 16 bits is a CMD32 word,
else a PHASE code. -/
def decodeTableWord (nbits w : Nat) : Option Instr :=
  if nbits ≤ 16 then (tablePhase nbits w).bind decodePhase
  else if w < 2 ^ 32 then decodeCommand (BitVec.ofNat 32 w)
  else none

end Sys2Proof
end

