-- ==== Sys2Proof/Machine/State.lean ====
section
/-! DEFINITION. The machine's state (10_state.md R10), the reasons a step can stop, the events of the outside
world, and the state after reset (R28). -/

namespace Sys2Proof.Machine

/-- Why a step stops. Every one is raised by an engine micro-operation (or, the last two, by the engine's turn
before one is selected) in a state outside the invariants of R14 and R101, which U4 and U15 of
93_implementation_defined.md say must fault. All are SAFE: the hardware promises nothing there, and no such state
is reachable from reset (R101, R119). A failed debug assertion is NOT one of these: it is the FAULT flag of R118,
a next state. -/
inductive Fault where
  /-- COUNT or SCATTER: a MemRead or MemWrite with index ≥ NMAX (R40, U4). Safe. -/
  | memIndex
  /-- COUNT or PREFIX: a counter would pass 2^32 − 1 (U4). Safe. -/
  | counterOverflow
  /-- SCATTER: a counter would fall below 0 (U4). Safe. -/
  | counterUnderflow
  /-- Any micro-operation: IDX is outside the range R101 gives its phase (U4). Safe. -/
  | idxRange
  /-- COUNT or SCATTER: a key step with ROUND above 3, where DIGIT is not defined (R75, U4). Safe. -/
  | digitRound
  /-- Any micro-operation: ROUND holds an unused code 5 to 7 (U15). Safe. -/
  | roundCode
  /-- The engine's turn: BUSY = 1 with an unused PHASE code 5 to 7 (R100, U4). Safe. -/
  | phaseCode
  /-- The engine's turn: BUSY = 1 with PHASE = IDLE, where R100 has no step. Safe. -/
  | busyIdle
  deriving DecidableEq, Repr

/-- Why an instruction has no meaning in the model. Raised by no arm of `exec`: every row of the opcode table has
its meaning. Safe. -/
inductive Refusal where
  /-- An instruction the model does not give a meaning yet, by its mnemonic. Safe. -/
  | notModelled (mnemonic : String)
  deriving DecidableEq, Repr

/-- What the outside world does, and when the engine gets its turn: one element is one atomic event of the total
order of R45 (log 4). -/
inductive Event where
  /-- `HostWrite(ha, v)` (R32). -/
  | write (ha : HostAddr) (v : Word)
  /-- `HostRead(ha)` (R33). -/
  | read (ha : HostAddr)
  /-- `WAIT`: repeat `RD CSR[1]` until bit 0 reads 0 (R57; log 6). -/
  | wait
  /-- One turn of the engine: an EngineStep if BUSY = 1, nothing otherwise (R100). -/
  | engine
  /-- `RESET` (R130). -/
  | reset
  deriving DecidableEq, Repr

/-- A key memory's cells: (word index, word), the words written since the last reset, indices strictly rising
(log 1). The unit is the 32-bit word: nothing is byte-addressable (R30, R41). -/
abbrev Memory := List (Nat × Word)

/-- The canonical form of a key memory. No second clause is needed: an unlisted index holds no written value, so
no entry equals what it reads as (log 1). -/
abbrev Memory.wf (m : Memory) : Prop := m.Pairwise (fun a b => a.1 < b.1)

/-- The state of one engine: R10's tuple, then the configuration (R5), then the model's own fields. -/
structure State where
  /-- BUF0, the input buffer (R11). -/
  buf0 : Memory
  /-- BUF1, the scratch buffer (R12). -/
  buf1 : Memory
  /-- CNT, the 256 counters (R13). -/
  cnt : Vector Word 256
  /-- LEN, the sequence length N (R20). -/
  len : Word
  /-- ROUND, the round index or terminal count (R15). -/
  round : BitVec 3
  /-- PHASE, what the sequencer is doing (R16). -/
  phase : BitVec 3
  /-- IDX, the scan position inside the phase (R17). -/
  idx : Word
  /-- SRCSEL: which key memory the pass reads, false = BUF0 (R18). -/
  srcsel : Bool
  /-- SINGLE: false for SORT, true for PASS (R18). -/
  single : Bool
  /-- BUSY (R21). -/
  busy : Bool
  /-- DONE (R21). -/
  done : Bool
  /-- ERR (R21). -/
  err : Bool
  /-- ERRCODE (R22, R111). -/
  errcode : BitVec 4
  /-- FAULT, a failed debug assertion (R21, R118). -/
  fault : Bool
  /-- FCODE (R22, R117). -/
  fcode : BitVec 2
  /-- The parameters NMAX and ASSERT_EN (R5): read by steps, written by none (log 7). -/
  cfg : Config
  /-- MODEL's own: how many resets there have been; selects the free memory contents (U1; log 3). -/
  draws : Nat
  /-- MODEL's own: the host accesses, engine turns and resets still to come (R9, R45; log 4). -/
  schedule : List Event
  /-- MODEL's own: what host reads returned, newest first (R33; log 5). -/
  returned : List Word
  deriving DecidableEq, Repr

/-- Every register at its value of R28, for any parameters, with nothing scheduled or returned. -/
def State.resetWith (c : Config) : State :=
  { buf0 := [], buf1 := [], cnt := Vector.replicate 256 0, len := 0, round := 0, phase := 0, idx := 0,
    srcsel := false, single := false, busy := false, done := false, err := false, errcode := 0,
    fault := false, fcode := 0, cfg := c, draws := 0, schedule := [], returned := [] }

/-- The machine right after reset (R28, R130), with the parameters of `Config.initial` (log 7). -/
def State.reset : State := State.resetWith Config.initial

end Sys2Proof.Machine
end

