-- ==== Sys2Proof/Machine/Ops.lean ====
section
/-! DEFINITION. The named operations over key memories, counters and the sequencer position, and the block's
two exceptional events with their way out (60_exceptions.md R110 to R118). -/

namespace Sys2Proof.Machine

/-! ## Key memories (20_memory.md R30, R38, R40) -/

/-- The word written at index `i` since the last reset, if any. -/
def Memory.find : Memory → Nat → Option Word
  | [], _ => none
  | (a, v) :: m, i => if a = i then some v else Memory.find m i

/-- Store `v` at index `i`, keeping the indices strictly rising. -/
def Memory.put : Memory → Nat → Word → Memory
  | [], i, v => [(i, v)]
  | (a, w) :: m, i, v =>
    if i < a then (i, v) :: (a, w) :: m
    else if i = a then (i, v) :: m
    else (a, w) :: Memory.put m i v

/-- Key memory `b`: false is BUF0, true is BUF1 (R18). -/
def State.buf (s : State) (b : Bool) : Memory := if b then s.buf1 else s.buf0

/-- Replace key memory `b`. -/
def State.setBuf (s : State) (b : Bool) (m : Memory) : State :=
  if b then { s with buf1 := m } else { s with buf0 := m }

/-- What a word nothing has written since the last reset reads as: the value drawn at that reset (R28, U1; log 2). -/
def State.unwritten (s : State) (b : Bool) (i : Nat) : Word := Config.resetWord s.draws b i

/-- The word at index `i` of key memory `b`: the last value written, or the unspecified reset value (R38, R40). -/
def State.wordAt (s : State) (b : Bool) (i : Nat) : Word := (Memory.find (s.buf b) i).getD (s.unwritten b i)

/-- `BUFb[i] <- v` (R38, R40). -/
def State.writeWord (s : State) (b : Bool) (i : Nat) (v : Word) : State := s.setBuf b (Memory.put (s.buf b) i v)

/-! ## The counter file (10_state.md R13) -/

/-- `CNT[d]`. -/
def State.counter (s : State) (d : Digit) : Word := s.cnt[d.toNat]'d.isLt

/-- `CNT[d] <- v`. -/
def State.setCounter (s : State) (d : Digit) (v : Word) : State := { s with cnt := s.cnt.set d.toNat v d.isLt }

/-- Every counter is 0, what PassEntry checks (R98) and R14 maintains. -/
abbrev State.countersZero (s : State) : Prop := ∀ d : Digit, s.counter d = 0

/-! ## The sequencer position (10_state.md R19) -/

/-- `PHASE <- p; IDX <- i`, ROUND kept: how a phase is entered (R98, R100). -/
def State.enterPhase (s : State) (p : BitVec 3) (i : Word) : State := { s with phase := p, idx := i }

/-- `IDX <- i` (R17). -/
def State.setIdx (s : State) (i : Word) : State := { s with idx := i }

/-! ## The schedule (log 4) -/

/-- What is still to come is now `es`. -/
def State.setSchedule (s : State) (es : List Event) : State := { s with schedule := es }

/-! ## Errors (60_exceptions.md R111, R114, R115) -/

/-- ERRCODE 1, ILLEGAL_CMD. -/
abbrev ErrCode.illegalCmd : BitVec 4 := 1
/-- ERRCODE 2, BAD_LEN. -/
abbrev ErrCode.badLen : BitVec 4 := 2
/-- ERRCODE 3, BUSY_ACCESS. -/
abbrev ErrCode.busyAccess : BitVec 4 := 3
/-- ERRCODE 4, BAD_ADDR. -/
abbrev ErrCode.badAddr : BitVec 4 := 4
/-- ERRCODE 5, RO_WRITE. -/
abbrev ErrCode.roWrite : BitVec 4 := 5
/-- ERRCODE 6, FAULTED. -/
abbrev ErrCode.faulted : BitVec 4 := 6

/-- `raise Err(code)`: ERR <- 1, ERRCODE <- code, nothing else (R114). -/
def State.raiseErr (s : State) (code : BitVec 4) : State := { s with err := true, errcode := code }

/-- Leaving the error state: ERR <- 0, ERRCODE <- 0 (R115). -/
def State.clearErr (s : State) : State := { s with err := false, errcode := 0 }

/-! ## Faults of the hardware: failed debug assertions (60_exceptions.md R116 to R118) -/

/-- FCODE 1, CNT_NONZERO. -/
abbrev FaultCode.cntNonzero : BitVec 2 := 1
/-- FCODE 2, ROUND_RANGE. -/
abbrev FaultCode.roundRange : BitVec 2 := 2
/-- FCODE 3, LEN_MISMATCH, which no rule raises (R117). -/
abbrev FaultCode.lenMismatch : BitVec 2 := 3

/-- `raise Fault(fcode)`: FAULT <- 1, FCODE <- fcode, BUSY <- 0, PHASE <- IDLE, IDX <- 0 (R118). There is no way
back but reset. -/
def State.raiseFault (s : State) (code : BitVec 2) : State :=
  { s with fault := true, fcode := code, busy := false, phase := phaseIdle, idx := 0 }

/-! ## Reset (70_reset_and_hazards.md R130, R131) -/

/-- RESET: every piece of state to its value of R28, both key memories to freshly drawn unspecified contents. The
parameters stay (R5); what the host still has to do and what it has read are not the block's (log 16). -/
def State.doReset (s : State) : State :=
  { State.resetWith s.cfg with draws := s.draws + 1, schedule := s.schedule, returned := s.returned }

end Sys2Proof.Machine
end

