-- ==== Sys2Proof/Machine/Flags.lean ====
section
/-! DEFINITION. The status flags, the STATUS register and the `done` output (10_state.md R21, R25; 20_memory.md
R36; 60_exceptions.md R120). -/

namespace Sys2Proof.Machine

/-- What a read of STATUS returns (R25), from bit 31 down: reserved, ROUND, reserved, PHASE, SINGLE, SRCSEL, FCODE,
ERRCODE, FAULT, ERR, DONE, BUSY. -/
def State.statusWord (s : State) : Word :=
  0#13 ++ s.round ++ 0#1 ++ s.phase ++ BitVec.ofBool s.single ++ BitVec.ofBool s.srcsel ++ s.fcode ++ s.errcode
    ++ BitVec.ofBool s.fault ++ BitVec.ofBool s.err ++ BitVec.ofBool s.done ++ BitVec.ofBool s.busy

/-- DONE <- 0 if `c`. -/
def State.clearDoneIf (s : State) (c : Bool) : State := if c then { s with done := false } else s

/-- ERR <- 0 and ERRCODE <- 0 if `c`. -/
def State.clearErrIf (s : State) (c : Bool) : State := if c then s.clearErr else s

/-- `StatusWrite(v)`: bit 1 clears DONE, bit 2 clears ERR and ERRCODE, every other bit is ignored (R36). -/
def State.statusWrite (s : State) (v : Word) : State := (s.clearDoneIf (v.getLsbD 1)).clearErrIf (v.getLsbD 2)

/-- The flags at command completion: BUSY <- 0, DONE <- 1 (R99). -/
def State.flagCompletion (s : State) : State := { s with busy := false, done := true }

/-- The flags at command acceptance: DONE <- 0, BUSY <- 1 (R62). -/
def State.flagAcceptance (s : State) : State := { s with done := false, busy := true }

/-- The `done` output: its level equals STATUS.DONE at all times (R120). -/
def State.doneOutput (s : State) : Bool := s.done

end Sys2Proof.Machine
end

