-- ==== Sys2Proof/Machine/Sequencer.lean ====
section
/-! DEFINITION. The sequencer's control transfers: PassEntry, PassEnd, Accept (42_round_driver.md R98, R99;
40_commands.md R62). -/

namespace Sys2Proof.Machine

/-- `PassEntry()`: the debug assertions if they are built in, ROUND's first, then PHASE <- COUNT, IDX <- 0 (R98). -/
def passEntry (s : State) : State :=
  if s.cfg.assertEn = true ∧ 3 < s.round.toNat then s.raiseFault FaultCode.roundRange
  else if s.cfg.assertEn = true ∧ ¬ s.countersZero then s.raiseFault FaultCode.cntNonzero
  else s.enterPhase phaseCount 0

/-- The part of `PassEnd()` before its test: ROUND <- ROUND + 1, SRCSEL <- 1 − SRCSEL, IDX <- 0 (R99). -/
def passAdvance (s : State) : State := { s with round := s.round + 1, srcsel := !s.srcsel, idx := 0 }

/-- Command completion: PHASE <- IDLE, BUSY <- 0, DONE <- 1 (R99). -/
def complete (s : State) : State := { s with phase := phaseIdle }.flagCompletion

/-- `PassEnd()` (R99). -/
def passEnd (s : State) : State :=
  if s.single = true ∨ (passAdvance s).round = 4 then complete (passAdvance s) else passEntry (passAdvance s)

/-- `Accept(c)` (R62): SINGLE, ROUND and SRCSEL from the command, DONE <- 0, BUSY <- 1, PassEntry. -/
def accept (single : Bool) (r : BitVec 3) (src : Bool) (s : State) : State :=
  passEntry ({ s with single := single, round := r, srcsel := src }.flagAcceptance)

end Sys2Proof.Machine
end

