-- ==== Sys2Proof/Machine/Command.lean ====
section
/-! DEFINITION. The host commands SORT and PASS (40_commands.md R60 to R64). A command's own effect is to be
accepted (R62); the phases it starts are the later steps of the engine (log 13). -/

namespace Sys2Proof.Machine

/-- What stands between a write to CMD and its command, shared by every word: refused with BUSY_ACCESS while busy
(R32 line 4, R37), with FAULTED while faulted (R60 line 1), else `run`. -/
def issueGuard (run : State → State) (s : State) : State :=
  if s.busy then s.raiseErr ErrCode.busyAccess
  else if s.fault then s.raiseErr ErrCode.faulted
  else run s

/-- SORT (R63): issue, then accept with ROUND = 0, SRCSEL = 0, SINGLE = 0. -/
def execSort (s : State) : Host.Outcome State Fault Refusal := .next (issueGuard (accept false 0 false) s)

/-- PASS r, s (R64): issue, then accept with ROUND = r, SRCSEL = s, SINGLE = 1. -/
def execPass (r : BitVec 3) (src : Bool) (s : State) : Host.Outcome State Fault Refusal :=
  .next (issueGuard (accept true r src) s)

end Sys2Proof.Machine
end

