-- ==== Sys2Proof/Machine/Operands.lean ====
section
/-! DEFINITION. Digit extraction and the engine's addressing modes (41_pass_phases.md R75, R90). -/

namespace Sys2Proof.Machine

/-- DIGIT: `(x >> (8*r)) & 0xFF` (R75). Its rounds are 0 to 3; `State.loadKey` keeps the others away. -/
def digit (x : Word) (r : BitVec 3) : Digit := ((x >>> (8 * r.toNat)) &&& 0xFF#32).setWidth 8

/-- DST, the key memory the pass writes: `1 − SRCSEL` (00_scope.md section 6, R18). -/
def State.dst (s : State) : Bool := !s.srcsel

/-- The key at index `i` of the source memory. -/
def State.key (s : State) (i : Nat) : Word := s.wordAt s.srcsel i

/-- The active digit of the key at index `i`, `d_i` of 41_pass_phases.md. -/
def State.dig (s : State) (i : Nat) : Digit := digit (s.key i) s.round

/-- The engine's load of the key at index `i` (R90 (1), (2)): the key, or the fault U4 asks for where DIGIT or
MemRead has no meaning (R40, R75). -/
def State.loadKey (s : State) (i : Nat) : Except Fault Word :=
  if 3 < s.round.toNat then .error .digitRound
  else if s.cfg.nmax.toNat ≤ i then .error .memIndex
  else .ok (s.key i)

/-- Where SCATTER stores the key at index `i` (R90 (3)): the counter of its digit, pre-decremented. -/
def State.storeIndex (s : State) (i : Nat) : Nat := (s.counter (s.dig i) - 1).toNat

end Sys2Proof.Machine
end

