-- ==== Sys2Proof/Machine/Phases.lean ====
section
/-! DEFINITION. The four micro-operations COUNT, PREFIX, SCATTER, CLEAR: for each, what it does to one key or one
counter, and its arm of EngineStep (41_pass_phases.md R77, R79, R81, R82; 42_round_driver.md R100). -/

namespace Sys2Proof.Machine

/-! ## One key, one counter -/

/-- COUNT of the key at index `i`: `CNT[d_i] <- CNT[d_i] + 1` (R77). -/
def countKey (i : Nat) (s : State) : State := s.setCounter (s.dig i) (s.counter (s.dig i) + 1)

/-- PREFIX at counter `d`: `CNT[d] <- CNT[d] + CNT[d − 1]` (R79). -/
def sumCounter (d : Nat) (s : State) : State :=
  s.setCounter (BitVec.ofNat 8 d) (s.counter (BitVec.ofNat 8 d) + s.counter (BitVec.ofNat 8 (d - 1)))

/-- SCATTER of the key at index `i`: `CNT[d_i] <- CNT[d_i] − 1; MemWrite(DST, CNT[d_i], x)` (R81). -/
def placeKey (i : Nat) (s : State) : State :=
  (s.setCounter (s.dig i) (s.counter (s.dig i) - 1)).writeWord s.dst (s.storeIndex i) (s.key i)

/-- CLEAR at counter `d`: `CNT[d] <- 0` (R82). -/
def zeroCounter (d : Nat) (s : State) : State := s.setCounter (BitVec.ofNat 8 d) 0

/-! ## The arms of EngineStep -/

/-- The states outside the invariants in which a micro-operation faults: an unused ROUND code, or IDX outside the
range `lo` to `hi` of its phase (U4, U15, R101; logs 9, 10). -/
def engineGuard (lo hi : Nat) (s : State) : Option Fault :=
  if 4 < s.round.toNat then some .roundCode
  else if s.idx.toNat < lo ∨ hi < s.idx.toNat then some .idxRange
  else none

/-- `CountStep` (R77), with the faults of U4. -/
def countStep (s : State) : Host.Outcome State Fault Refusal :=
  match s.loadKey s.idx.toNat with
  | .error f => .fault f
  | .ok x =>
    if s.counter (digit x s.round) = BitVec.allOnes 32 then .fault .counterOverflow
    else .next ((countKey s.idx.toNat s).setIdx (s.idx + 1))

/-- COUNT (R77, R100): a key step while IDX < LEN, else PHASE <- PREFIX, IDX <- 1. -/
def execCount (s : State) : Host.Outcome State Fault Refusal :=
  match engineGuard 0 s.len.toNat s with
  | some f => .fault f
  | none => if s.idx.toNat < s.len.toNat then countStep s else .next (s.enterPhase phasePrefixSum 1)

/-- `PrefixStep` (R79), with the fault of U4. -/
def prefixStep (s : State) : Host.Outcome State Fault Refusal :=
  if 2 ^ 32 ≤ (s.counter (BitVec.ofNat 8 s.idx.toNat)).toNat + (s.counter (BitVec.ofNat 8 (s.idx.toNat - 1))).toNat then
    .fault .counterOverflow
  else .next ((sumCounter s.idx.toNat s).setIdx (s.idx + 1))

/-- PREFIX (R79, R100): a counter step while IDX ≤ 255, else PHASE <- SCATTER, IDX <- LEN. -/
def execPrefixSum (s : State) : Host.Outcome State Fault Refusal :=
  match engineGuard 1 256 s with
  | some f => .fault f
  | none => if s.idx.toNat ≤ 255 then prefixStep s else .next (s.enterPhase phaseScatter s.len)

/-- `ScatterStep` (R81), with the faults of U4. -/
def scatterStep (s : State) : Host.Outcome State Fault Refusal :=
  match s.loadKey (s.idx.toNat - 1) with
  | .error f => .fault f
  | .ok x =>
    if s.counter (digit x s.round) = 0 then .fault .counterUnderflow
    else if s.cfg.nmax.toNat ≤ s.storeIndex (s.idx.toNat - 1) then .fault .memIndex
    else .next ((placeKey (s.idx.toNat - 1) s).setIdx (s.idx - 1))

/-- SCATTER (R81, R100): a key step while IDX > 0, else PHASE <- CLEAR, IDX <- 0. -/
def execScatter (s : State) : Host.Outcome State Fault Refusal :=
  match engineGuard 0 s.len.toNat s with
  | some f => .fault f
  | none => if 0 < s.idx.toNat then scatterStep s else .next (s.enterPhase phaseClear 0)

/-- CLEAR (R82, R100): a counter step while IDX ≤ 255, else PassEnd (R99). -/
def execClear (s : State) : Host.Outcome State Fault Refusal :=
  match engineGuard 0 256 s with
  | some f => .fault f
  | none =>
    if s.idx.toNat ≤ 255 then .next ((zeroCounter s.idx.toNat s).setIdx (s.idx + 1)) else .next (passEnd s)

end Sys2Proof.Machine
end

