-- ==== Sys2Proof/Machine/Dispatch.lean ====
section
/-! DEFINITION. The dispatch of an instruction to its meaning, one arm per row of spec/opcode_table.json. -/

namespace Sys2Proof.Machine

def exec (i : Instr) (s : State) : Host.Outcome State Fault Refusal :=
  match i with
  | .sort => Sys2Proof.Machine.execSort s
  | .pass r src => Sys2Proof.Machine.execPass r src s
  | .count => Sys2Proof.Machine.execCount s
  | .prefixSum => Sys2Proof.Machine.execPrefixSum s
  | .scatter => Sys2Proof.Machine.execScatter s
  | .clear => Sys2Proof.Machine.execClear s

end Sys2Proof.Machine
end

