-- ==== Sys2Proof/Machine/HostPort.lean ====
section
/-! DEFINITION. The host port: addresses, HostWrite, HostRead (20_memory.md R31 to R38; 40_commands.md R60). -/

namespace Sys2Proof.Machine

/-- SPACE, bits 33:32 of a host address (R31). -/
def addrSpace (ha : HostAddr) : Nat := (ha.extractLsb' 32 2).toNat

/-- INDEX, bits 31:0 of a host address (R31). -/
def addrIndex (ha : HostAddr) : Nat := (ha.extractLsb' 0 32).toNat

/-- `CSR[n]`, that is `0 ∥ n` (R31). -/
def csrAddr (n : Word) : HostAddr := 0#2 ++ n

/-- `BUFb[i]`, that is `2 ∥ i` or `3 ∥ i` (R31). -/
def bufAddr (b : Bool) (i : Word) : HostAddr := (if b then 3#2 else 2#2) ++ i

/-- The key memory a space of 2 or 3 names: space − 2 (R32 line 7). -/
def spaceBuf (sp : Nat) : Bool := sp == 3

/-- The addresses that select nothing (R34): space 1, a CSR index above 3, a key-memory index at or above NMAX. -/
abbrev State.badAddress (s : State) (ha : HostAddr) : Prop :=
  addrSpace ha = 1 ∨ (addrSpace ha = 0 ∧ 3 < addrIndex ha) ∨ (2 ≤ addrSpace ha ∧ s.cfg.nmax.toNat ≤ addrIndex ha)

/-- `LenWrite(v)`: BAD_LEN above NMAX, else LEN <- v (R35). -/
def lenWrite (v : Word) (s : State) : State :=
  if s.cfg.nmax.toNat < v.toNat then s.raiseErr ErrCode.badLen else { s with len := v }

/-- `Issue(w)` (R60). -/
def issue (w : Word) (s : State) : State :=
  if s.fault then s.raiseErr ErrCode.faulted
  else match decodeCommand w with
    | some .sort => accept false 0 false s
    | some (.pass r src) => accept true r src s
    | _ => s.raiseErr ErrCode.illegalCmd

/-- `HostWrite(ha, v)`: the first matching line of R32. -/
def hostWrite (ha : HostAddr) (v : Word) (s : State) : State :=
  if s.badAddress ha then s.raiseErr ErrCode.badAddr
  else if addrSpace ha = 0 ∧ addrIndex ha = 3 then s.raiseErr ErrCode.roWrite
  else if addrSpace ha = 0 ∧ addrIndex ha = 1 then s.statusWrite v
  else if s.busy then s.raiseErr ErrCode.busyAccess
  else if addrSpace ha = 0 ∧ addrIndex ha = 2 then lenWrite v s
  else if addrSpace ha = 0 ∧ addrIndex ha = 0 then issue v s
  else s.writeWord (spaceBuf (addrSpace ha)) (addrIndex ha) v

/-- `HostRead(ha)`: the value returned and the state after, by the first matching line of R33. -/
def hostRead (ha : HostAddr) (s : State) : Word × State :=
  if s.badAddress ha then (0, s.raiseErr ErrCode.badAddr)
  else if addrSpace ha = 0 ∧ addrIndex ha = 0 then (0, s)
  else if addrSpace ha = 0 ∧ addrIndex ha = 1 then (s.statusWord, s)
  else if addrSpace ha = 0 ∧ addrIndex ha = 2 then (s.len, s)
  else if addrSpace ha = 0 ∧ addrIndex ha = 3 then (s.cfg.nmax, s)
  else if s.busy then (0, s.raiseErr ErrCode.busyAccess)
  else (s.wordAt (spaceBuf (addrSpace ha)) (addrIndex ha), s)

/-- A host read as an event: what it returns goes to the host (log 5). -/
def readEvent (ha : HostAddr) (s : State) : State :=
  { (hostRead ha s).2 with returned := (hostRead ha s).1 :: s.returned }

end Sys2Proof.Machine
end

