-- ==== Sys2Proof/Machine/Fetch.lean ====
section
/-! DEFINITION. What happens next: which instruction the next event presents, or what the event does when it
presents none (30_encoding.md R56; 42_round_driver.md R100; 20_memory.md R45, R48; log 4). The block fetches nothing
from memory: a command is the value of one host write to CMD, a micro-operation is what PHASE names. -/

namespace Sys2Proof.Machine

/-- What the next event comes to: an instruction to run at a state, or an outcome already reached. -/
inductive Fetched where
  | run (i : Instr) (t : State)
  | settled (o : Host.Outcome State Fault Refusal)

/-- The engine's turn (R100): with BUSY = 1 the micro-operation PHASE names, a named fault where it names none;
with BUSY = 0 no step is enabled and nothing happens. -/
def engineTurn (s : State) : Fetched :=
  if s.busy then
    match decodePhase s.phase with
    | some i => .run i s
    | none => .settled (.fault (if s.phase = phaseIdle then .busyIdle else .phaseCode))
  else .settled (.next s)

/-- A host write (R32). A legal command word written to CMD is an instruction; every other write is the port's. -/
def writeTurn (ha : HostAddr) (v : Word) (s : State) : Fetched :=
  if ha = csrAddr 0 then
    match decodeCommand v with
    | some i => .run i s
    | none => .settled (.next (hostWrite ha v s))
  else .settled (.next (hostWrite ha v s))

/-- The next event of the total order of R45. With nothing scheduled the engine goes on (R104: "the engine continues
to step until completion"); a WAIT stays while BUSY = 1 and ends with the read that shows BUSY = 0 (R57; log 6). -/
def fetch (s : State) : Fetched :=
  match s.schedule with
  | [] => engineTurn s
  | .engine :: rest => engineTurn (s.setSchedule rest)
  | .wait :: rest => if s.busy then engineTurn s else .settled (.next (readEvent (csrAddr 1) (s.setSchedule rest)))
  | .write ha v :: rest => writeTurn ha v (s.setSchedule rest)
  | .read ha :: rest => .settled (.next (readEvent ha (s.setSchedule rest)))
  | .reset :: rest => .settled (.next (s.setSchedule rest).doReset)

/-- The micro-operation's IDX at the start of its phase (R98, R100): COUNT 0, PREFIX 1, SCATTER LEN, CLEAR 0. -/
def entryIdx (p : BitVec 3) (s : State) : Word :=
  if p = phasePrefixSum then 1 else if p = phaseScatter then s.len else 0

/-- Place a command word so that the next step runs it: the next event is its write to CMD (R50; log 15). -/
def placeCommand (w : Word) (s : State) : State := { s with schedule := .write (csrAddr 0) w :: s.schedule }

/-- Place a micro-operation so that the next step runs it: BUSY = 1, PHASE and IDX as at the start of its phase,
and the engine's turn next (R56, R100; log 15). A word that is no PHASE code places the unused code 7. -/
def placePhase (p : Option (BitVec 3)) (s : State) : State :=
  { s with busy := true, phase := p.getD 7, idx := entryIdx (p.getD 7) s, schedule := .engine :: s.schedule }

end Sys2Proof.Machine
end

