-- ==== Sys2Proof/Machine/Step.lean ====
section
/-! DEFINITION. One step: the next event of the total order of host accesses, engine steps and resets
(20_memory.md R45; 42_round_driver.md R100). -/

namespace Sys2Proof.Machine

/-- One step of the machine: the next event, run by `exec` where it presents an instruction. -/
def step (s : State) : Host.Outcome State Fault Refusal :=
  match fetch s with
  | .run i t => exec i t
  | .settled o => o

/-- `s` with the opcode-table word `w` of `nbits` bits placed so that the next step runs it: a command word as the
next host write, a micro-operation as what PHASE names (log 15). -/
def State.withFetchWord (s : State) (nbits w : Nat) : State :=
  if nbits ≤ 16 then placePhase (tablePhase nbits w) s else placeCommand (BitVec.ofNat 32 w) s

end Sys2Proof.Machine
end

