-- ==== Sys2Proof/Machine/HostProgram.lean ====
section
/-! DEFINITION. The spec's notation for host programs, as events of the schedule (30_encoding.md R57, R58;
70_reset_and_hazards.md R133). -/

namespace Sys2Proof.Machine

/-- `WR CSR[n], v` (R57). -/
def wrCsr (n v : Word) : Event := .write (csrAddr n) v

/-- `WR BUFb[i], v` (R57). -/
def wrBuf (b : Bool) (i v : Word) : Event := .write (bufAddr b i) v

/-- `RD CSR[n]` (R57). -/
def rdCsr (n : Word) : Event := .read (csrAddr n)

/-- `RD BUFb[i]` (R57). -/
def rdBuf (b : Bool) (i : Word) : Event := .read (bufAddr b i)

/-- `SORT`: `WR CSR[0], 0x00000001` (R57). -/
def sortLine : Event := wrCsr 0 0x00000001#32

/-- `PASS r, s`: `WR CSR[0], 0x2 + 16*r + 64*s` (R57). -/
def passLine (r : BitVec 3) (src : Bool) : Event := wrCsr 0 (passWord r src)

/-- The writes `WR BUFb[i], k_i` from index `i` on. -/
def wrKeys (b : Bool) : Nat → List Word → List Event
  | _, [] => []
  | i, k :: ks => wrBuf b (BitVec.ofNat 32 i) k :: wrKeys b (i + 1) ks

/-- `LOAD b, [k0, …]`: `WR CSR[2], n`, then the keys (R58). -/
def load (b : Bool) (ks : List Word) : List Event := wrCsr 2 (BitVec.ofNat 32 ks.length) :: wrKeys b 0 ks

/-- `CALL_SORT [k0, …]`: LOAD, SORT, WAIT, then `RD BUF0[i]` for every i (R58, R133). -/
def callSort (ks : List Word) : List Event :=
  load false ks ++ [sortLine, .wait] ++ (List.range ks.length).map (fun i => rdBuf false (BitVec.ofNat 32 i))

end Sys2Proof.Machine
end

