-- ==== Sys2Proof/Machine/BigStep.lean ====
section
/-! DEFINITION. The big-step effects of the phases, the pass and the commands, as the loops of the spec's pseudocode
(41_pass_phases.md R77, R79, R81, R82, R83; 40_commands.md R63, R64). `step` does not use them: they are what R102
says the micro-steps agree with. Counter arithmetic wraps at 32 bits here, which R86 shows is never exercised. -/

namespace Sys2Proof.Machine

/-- COUNT: i = 0, 1, …, N − 1 in this order (R77). -/
def bigCount (s : State) : State := (List.range s.len.toNat).foldl (fun t i => countKey i t) s

/-- PREFIX: d = 1, 2, …, 255 in this order (R79). -/
def bigPrefixSum (s : State) : State := (List.range' 1 255).foldl (fun t d => sumCounter d t) s

/-- SCATTER: i = N − 1, N − 2, …, 0 in this order (R81). -/
def bigScatter (s : State) : State := (List.range s.len.toNat).reverse.foldl (fun t i => placeKey i t) s

/-- CLEAR: d = 0, 1, …, 255 (R82). -/
def bigClear (s : State) : State := (List.range 256).foldl (fun t d => zeroCounter d t) s

/-- `Pass(src, 1 − src, r)`: COUNT, PREFIX, SCATTER, CLEAR with SRCSEL = src and ROUND = r throughout (R83). -/
def bigPass (src : Bool) (r : BitVec 3) (s : State) : State :=
  bigClear (bigScatter (bigPrefixSum (bigCount { s with srcsel := src, round := r })))

/-- The registers at a command's completion: PHASE <- IDLE, IDX <- 0, BUSY <- 0, DONE <- 1, with ROUND, SRCSEL and
SINGLE as given (R63, R64). -/
def completed (r : BitVec 3) (src single : Bool) (s : State) : State :=
  { s with round := r, srcsel := src, single := single, phase := phaseIdle, idx := 0, busy := false, done := true }

/-- PASS r, s from acceptance to completion (R64). -/
def bigPassCommand (r : BitVec 3) (src : Bool) (s : State) : State := completed (r + 1) (!src) true (bigPass src r s)

/-- SORT from acceptance to completion (R63). -/
def bigSort (s : State) : State :=
  completed 4 false false (bigPass true 3 (bigPass false 2 (bigPass true 1 (bigPass false 0 s))))

end Sys2Proof.Machine
end

