-- ==== Sys2Proof/Safety.lean ====
section
/-! DEFINITION. The terms claims are stated in: the digit counts of a pass (41_pass_phases.md R78, R80, R84), the
invariants (R14, R101, R119), reachable states, steps to completion (R141), and what a good end is (R104). -/

namespace Sys2Proof.Machine

/-! ## Digit counts of the source sequence -/

/-- `#{ j : j < n and d_j = d }`. -/
def State.countBelow (s : State) (n : Nat) (d : Digit) : Nat := (List.range n).countP (fun j => s.dig j == d)

/-- `count[d]` of R78: how many keys of the sequence have digit `d`. -/
def State.histogram (s : State) (d : Digit) : Nat := s.countBelow s.len.toNat d

/-- `incl[d]` of R80: how many keys have a digit ≤ `d`. -/
def State.incl (s : State) (d : Digit) : Nat := (List.range s.len.toNat).countP (fun j => decide (s.dig j ≤ d))

/-- `excl[d]` of R80: how many keys have a digit < `d`. -/
def State.excl (s : State) (d : Digit) : Nat := (List.range s.len.toNat).countP (fun j => decide (s.dig j < d))

/-- `p(i)` of R84: where a pass puts the key at index `i`. -/
def State.rank (s : State) (i : Nat) : Nat := s.excl (s.dig i) + s.countBelow i (s.dig i)

/-- The first LEN words of key memory `b`, index 0 first: `seq(b)` of 00_scope.md section 5. -/
def State.seq (s : State) (b : Bool) : List Word := (List.range s.len.toNat).map (s.wordAt b)

/-! ## The invariants -/

/-- What counter `d` holds in the phase and at the position the sequencer is at: the loops of R77, R79, R81 and R82
as far as they have come, in the terms of R78, R80 and R87; 0 when idle (R14). -/
def State.expectedCounter (s : State) (d : Digit) : Nat :=
  if s.phase = phaseCount then s.countBelow s.idx.toNat d
  else if s.phase = phasePrefixSum then (if d.toNat < s.idx.toNat then s.incl d else s.histogram d)
  else if s.phase = phaseScatter then s.excl d + s.countBelow s.idx.toNat d
  else if s.phase = phaseClear then (if d.toNat < s.idx.toNat then 0 else s.excl d)
  else 0

/-- The first source index SCATTER has placed already: IDX while it runs, 0 once it is over. -/
def State.placedFrom (s : State) : Nat := if s.phase = phaseScatter then s.idx.toNat else 0

/-- R101, the sequencer invariants, item by item. -/
structure SequencerInv (s : State) : Prop where
  busy_iff : s.busy = true ↔
    s.phase = phaseCount ∨ s.phase = phasePrefixSum ∨ s.phase = phaseScatter ∨ s.phase = phaseClear
  running : s.busy = true → s.round.toNat ≤ 3 ∧ s.fault = false ∧ s.done = false
  idle : s.phase = phaseIdle → s.idx = 0 ∧ s.countersZero
  idx_count : s.phase = phaseCount → s.idx.toNat ≤ s.len.toNat
  idx_prefix : s.phase = phasePrefixSum → 1 ≤ s.idx.toNat ∧ s.idx.toNat ≤ 256
  idx_scatter : s.phase = phaseScatter → s.idx.toNat ≤ s.len.toNat
  idx_clear : s.phase = phaseClear → s.idx.toNat ≤ 256
  alternation : s.busy = true → s.single = false → s.srcsel = decide (s.round.toNat % 2 = 1)
  round_le : s.round.toNat ≤ 4
  round_four : s.round = 4 → s.phase = phaseIdle
  done_idle : s.done = true → s.busy = false
  fault_idle : s.fault = true → s.busy = false

/-- The inductive invariant: R101 with what the other rules say of reachable states (R5, R11, R14 to R16, R20, R22,
R111, R119) and how far the running pass has come (R78, R80, R84, R87). -/
structure Inv (s : State) : Prop extends SequencerInv s where
  /-- R5: the parameter NMAX is at least 1. -/
  capacity : s.cfg.wf
  /-- R20: LEN ≤ NMAX. -/
  len_le : s.len.toNat ≤ s.cfg.nmax.toNat
  /-- The key memories are in canonical form. -/
  buf_wf : ∀ b, (s.buf b).wf
  /-- R11, R12: a key memory has word indices 0..NMAX − 1. -/
  buf_lt : ∀ b, ∀ e ∈ s.buf b, e.1 < s.cfg.nmax.toNat
  /-- R16: PHASE ≠ IDLE exactly when BUSY = 1; with R101 the codes 5 to 7 do not occur. -/
  phase_idle : s.busy = false → s.phase = phaseIdle
  /-- R22: ERRCODE is 0 whenever ERR = 0; R111: the codes 7 to 15 are never produced. -/
  err_none : s.err = false → s.errcode = 0
  errcode_le : s.errcode.toNat ≤ 6
  /-- R119: FAULT = 0 and FCODE = 0. -/
  no_fault : s.fault = false ∧ s.fcode = 0
  /-- R14, R78, R80, R87: every counter holds what the running phase has made of it. -/
  counters : ∀ d, (s.counter d).toNat = s.expectedCounter d
  /-- R84: the keys SCATTER has placed are where `p` puts them. -/
  placed : s.phase = phaseScatter ∨ s.phase = phaseClear →
    ∀ i, s.placedFrom ≤ i → i < s.len.toNat → s.wordAt s.dst (s.rank i) = s.key i

/-- A reachable state (00_scope.md, glossary): reached from a reset, for any parameters, any contents of the key
memories and any schedule of host accesses, engine turns and resets. -/
inductive Reachable : State → Prop where
  | start (c : Config) (k : Nat) (evs : List Event) (h : c.wf) :
      Reachable { State.resetWith c with draws := k, schedule := evs }
  | step (s t : State) (h : Reachable s) (hs : Sys2Proof.Machine.step s = .next t) : Reachable t

/-! ## Whose turn it is -/

/-- The next event is a turn of the engine: a scheduled one, a WAIT (which lets the engine go on while BUSY = 1), or
an empty schedule. -/
def State.engineNext (s : State) : Bool :=
  match s.schedule with
  | [] => true
  | .engine :: _ => true
  | .wait :: _ => true
  | _ => false

/-- The state the engine's turn starts from: a scheduled turn is used up, a WAIT stays. -/
def State.afterTurn (s : State) : State :=
  match s.schedule with
  | .engine :: rest => { s with schedule := rest }
  | _ => s

/-- The engine runs alone: nothing is scheduled. -/
abbrev State.alone (s : State) : Prop := s.schedule = []

/-- The block is idle and not faulted: it accepts a command (R60). -/
abbrev State.ready (s : State) : Prop := s.busy = false ∧ s.fault = false

/-- The state at pass entry, with the preconditions of a pass (R76). -/
structure AtPassEntry (s : State) : Prop where
  busy : s.busy = true
  phase : s.phase = phaseCount
  idx : s.idx = 0
  round : s.round.toNat ≤ 3
  zero : s.countersZero
  len_le : s.len.toNat ≤ s.cfg.nmax.toNat

/-- What the engine reads or writes, and what it answers with: everything but the error state, the host's remaining
events and what the host has read. -/
def State.engineView (s : State) : State := { s with err := false, errcode := 0, schedule := [], returned := [] }

/-- What chooses the sequencer's path (R103): the position, the command, LEN and the flags. -/
def State.control (s : State) : BitVec 3 × BitVec 3 × Word × Word × Bool × Bool × Bool × Bool :=
  (s.round, s.phase, s.idx, s.len, s.srcsel, s.single, s.busy, s.done)

/-! ## Steps to completion (70_reset_and_hazards.md R141) -/

/-- The engine steps left in the running pass, PassEnd included. -/
def State.passStepsLeft (s : State) : Nat :=
  if s.phase = phaseCount then (s.len.toNat - s.idx.toNat) + 1 + 256 + (s.len.toNat + 1) + 257
  else if s.phase = phasePrefixSum then (256 - s.idx.toNat) + 1 + (s.len.toNat + 1) + 257
  else if s.phase = phaseScatter then s.idx.toNat + 1 + 257
  else if s.phase = phaseClear then (256 - s.idx.toNat) + 1
  else 0

/-- The engine steps left until the running command completes: the pass at hand and, in a SORT, the passes after it. -/
def State.stepsLeft (s : State) : Nat :=
  if s.busy then s.passStepsLeft + (if s.single then 0 else (3 - s.round.toNat) * (2 * s.len.toNat + 515)) else 0

/-! ## The end of a run (42_round_driver.md R104) -/

/-- A run has ended when the host has issued its last access and BUSY = 0. -/
abbrev State.ended (s : State) : Prop := s.schedule = [] ∧ s.busy = false

/-- The end state is good when in addition FAULT = 0 and ERR = 0. -/
abbrev State.goodEnd (s : State) : Prop := s.ended ∧ s.fault = false ∧ s.err = false

/-! ## Runs -/

/-- `k` steps of the machine. -/
abbrev runSteps (k : Nat) (s : State) : Host.Outcome State Fault Refusal := Host.Core.run Sys2Proof.core k s

end Sys2Proof.Machine
end

