-- ==== Sys2Proof/Certificates/Slice0/Obligations.lean ====
section
/-! DEFINITION. The statements for the provers. Each says in its docstring which sentence of the spec it formalises,
or that it is derived and from what. A run is `runSteps k s`: k steps of `step`. -/

open Sys2Proof Sys2Proof.Machine

/-! ## Encoding (30_encoding.md) -/

/-- R55: `Decode(Encode(c)) = c` and `Encode(Decode(w)) = w`, for every well-formed operation and every code; what is
decoded is well-formed. -/
def Obligations.DecodeAndEncodeAgree : Prop :=
  (∀ i : Instr, WellFormed i → decode (encode i) = some i) ∧
  (∀ (c : Code) (i : Instr), decode c = some i → WellFormed i ∧ encode i = c)

/-- R53: the illegal words, and that one written to CMD while idle and not faulted raises Err(ILLEGAL_CMD) and changes
nothing else. -/
def Obligations.IllegalWordsAreRefused : Prop :=
  ∀ w : Word,
    (decodeCommand w = none ↔
      (w.extractLsb' 0 4 ≠ 1#4 ∧ w.extractLsb' 0 4 ≠ 2#4) ∨ w.extractLsb' 7 25 ≠ 0#25 ∨
        (w.extractLsb' 0 4 = 1#4 ∧ w.extractLsb' 4 3 ≠ 0#3)) ∧
    (decodeCommand w = none → ∀ s : State, s.ready →
      hostWrite (csrAddr 0) w s = { s with err := true, errcode := 1 })

/-- R51, R56 and vector V11: sample words and codes decode to what the spec's tables say. -/
def Obligations.SampleWordsDecode : Prop :=
  decodeCommand 0x00000001#32 = some .sort ∧
  decodeCommand 0x00000002#32 = some (.pass 0 false) ∧ decodeCommand 0x00000032#32 = some (.pass 3 false) ∧
  decodeCommand 0x00000052#32 = some (.pass 1 true) ∧ decodeCommand 0x00000072#32 = some (.pass 3 true) ∧
  decodePhase 0b001#3 = some .count ∧ decodePhase 0b010#3 = some .prefixSum ∧
  decodePhase 0b011#3 = some .scatter ∧ decodePhase 0b100#3 = some .clear ∧
  decodeCommand 0x00000000#32 = none ∧ decodeCommand 0x00000011#32 = none ∧ decodeCommand 0x00000041#32 = none ∧
  decodeCommand 0x00000082#32 = none ∧ decodeCommand 0x80000001#32 = none ∧ decodePhase 0#3 = none

/-- R75: digit `r` of a key is `(x >> (8*r)) & 0xFF`, a logical shift, that is the byte `x[8r+7 : 8r]`, for every key
and r in 0..3. -/
def Obligations.DigitIsByteOfKey : Prop :=
  ∀ (x : Word) (r : BitVec 3), r.toNat ≤ 3 →
    (digit x r).setWidth 32 = (x >>> (8 * r.toNat)) &&& 0xFF#32 ∧
    digit x r = x.extractLsb' (8 * r.toNat) 8 ∧ (digit x r).toNat = x.toNat / 2 ^ (8 * r.toNat) % 256

/-! ## A step runs the decoded instruction (the schedule is the model's, log 4) -/

/-- A host write of a legal command word to CMD is `exec` of that command, the event used up. The engine's turn with
BUSY = 1 and a PHASE that names a micro-operation is `exec` of it, a scheduled turn used up (a WAIT stays); with
BUSY = 0 it changes nothing. The schedule is the model's choice (logs 4, 6). -/
def Obligations.StepRunsDecodedInstruction : Prop :=
  (∀ (s : State) (w : Word) (rest : List Event) (i : Instr),
      s.schedule = .write (csrAddr 0) w :: rest → decodeCommand w = some i →
        step s = exec i { s with schedule := rest }) ∧
  (∀ (s : State) (i : Instr), s.engineNext = true → s.busy = true → decodePhase s.phase = some i →
      step s = exec i s.afterTurn) ∧
  (∀ s : State, s.schedule = [] → s.busy = false → step s = .next s) ∧
  (∀ (s : State) (rest : List Event), s.schedule = .engine :: rest → s.busy = false →
      step s = .next { s with schedule := rest })

/-- Every host access is one event: a write is `HostWrite`, a read is `HostRead` and hands its value to the host, a
WAIT with BUSY = 0 is a read of STATUS. The schedule and the log of returned values are the model's choice (logs 4, 5,
6). -/
def Obligations.HostEventsAreHostAccesses : Prop :=
  (∀ (s : State) (ha : HostAddr) (v : Word) (rest : List Event), s.schedule = .write ha v :: rest →
      step s = .next (hostWrite ha v { s with schedule := rest })) ∧
  (∀ (s : State) (ha : HostAddr) (rest : List Event), s.schedule = .read ha :: rest →
      step s = .next { (hostRead ha { s with schedule := rest }).2 with
        returned := (hostRead ha { s with schedule := rest }).1 :: s.returned }) ∧
  (∀ (s : State) (rest : List Event), s.schedule = .wait :: rest → s.busy = false →
      step s = .next { s with schedule := rest, returned := s.statusWord :: s.returned })

/-- A table word placed by `withFetchWord` is run by the very next step: a command word at the state itself, a
micro-operation with BUSY = 1 at the entry of its phase. How a word is placed is the model's choice (log 15). -/
def Obligations.PlacedWordRunsNext : Prop :=
  ∀ (s : State) (nbits w : Nat) (i : Instr), decodeTableWord nbits w = some i →
    step (s.withFetchWord nbits w) =
      exec i (if nbits ≤ 16 then
        { s with busy := true, phase := (tablePhase nbits w).getD 7, idx := entryIdx ((tablePhase nbits w).getD 7) s }
        else s)

/-! ## The host port (20_memory.md, 10_state.md section 6) -/

/-- R34: an address that selects nothing: the write is dropped, the read returns 0, both raise Err(BAD_ADDR), in
every state, busy included. -/
def Obligations.BadAddressIsRefused : Prop :=
  ∀ (s : State) (ha : HostAddr),
    (ha.extractLsb' 32 2 = 1#2 ∨ (ha.extractLsb' 32 2 = 0#2 ∧ 3 < (ha.extractLsb' 0 32).toNat) ∨
      ((ha.extractLsb' 32 2 = 2#2 ∨ ha.extractLsb' 32 2 = 3#2) ∧ s.cfg.nmax.toNat ≤ (ha.extractLsb' 0 32).toNat)) →
    (∀ v, hostWrite ha v s = { s with err := true, errcode := 4 }) ∧
    hostRead ha s = (0, { s with err := true, errcode := 4 })

/-- R27: CAP reads NMAX in every state and a write to it is rejected with RO_WRITE, busy included. -/
def Obligations.CapReadsCapacity : Prop :=
  ∀ s : State, hostRead (csrAddr 3) s = (s.cfg.nmax, s) ∧
    ∀ v, hostWrite (csrAddr 3) v s = { s with err := true, errcode := 5 }

/-- R25 and R36: a read of STATUS returns its fields at their bits and changes nothing; a write clears DONE by bit 1,
ERR and ERRCODE by bit 2, and changes nothing else; both in every state. -/
def Obligations.StatusReadsAndClears : Prop :=
  ∀ s : State,
    (∃ v : Word, hostRead (csrAddr 1) s = (v, s) ∧
      v.getLsbD 0 = s.busy ∧ v.getLsbD 1 = s.done ∧ v.getLsbD 2 = s.err ∧ v.getLsbD 3 = s.fault ∧
      v.extractLsb' 4 4 = s.errcode ∧ v.extractLsb' 8 2 = s.fcode ∧ v.getLsbD 10 = s.srcsel ∧
      v.getLsbD 11 = s.single ∧ v.extractLsb' 12 3 = s.phase ∧ v.getLsbD 15 = false ∧
      v.extractLsb' 16 3 = s.round ∧ v.extractLsb' 19 13 = 0#13) ∧
    (∀ v : Word, hostWrite (csrAddr 1) v s =
      { s with done := if v.getLsbD 1 then false else s.done,
               err := if v.getLsbD 2 then false else s.err,
               errcode := if v.getLsbD 2 then 0 else s.errcode })

/-- R26 and R35: LEN is read at any time; a write while idle (faulted included) stores a value up to NMAX, 0 included,
and raises Err(BAD_LEN) above it, LEN kept; it touches nothing else; a write while busy is not accepted. -/
def Obligations.LenReadsAndWrites : Prop :=
  ∀ s : State, hostRead (csrAddr 2) s = (s.len, s) ∧
    (s.busy = false → ∀ v : Word,
      (v.toNat ≤ s.cfg.nmax.toNat → hostWrite (csrAddr 2) v s = { s with len := v }) ∧
      (s.cfg.nmax.toNat < v.toNat → hostWrite (csrAddr 2) v s = { s with err := true, errcode := 2 })) ∧
    (s.busy = true → ∀ v : Word, hostWrite (csrAddr 2) v s = { s with err := true, errcode := 3 })

/-- R37: while BUSY = 1 a write to CMD, LEN, BUF0 or BUF1 is dropped and a read of BUF0 or BUF1 returns 0, both with
Err(BUSY_ACCESS), for every value and every index that selects a word. -/
def Obligations.BusyAccessIsRefused : Prop :=
  ∀ s : State, s.busy = true →
    (∀ v, hostWrite (csrAddr 0) v s = { s with err := true, errcode := 3 }) ∧
    (∀ v, hostWrite (csrAddr 2) v s = { s with err := true, errcode := 3 }) ∧
    (∀ (b : Bool) (i v : Word), i.toNat < s.cfg.nmax.toNat →
      hostWrite (bufAddr b i) v s = { s with err := true, errcode := 3 } ∧
      hostRead (bufAddr b i) s = (0, { s with err := true, errcode := 3 }))

/-- R38: while BUSY = 0 (faulted included) every word of BUF0 and BUF1 is readable and writable: a write stores the
value there and nowhere else, a read returns the last value written or the unspecified reset value, without side
effect. -/
def Obligations.IdleKeyMemoryAccess : Prop :=
  ∀ (s : State) (b : Bool) (i : Word), s.busy = false → i.toNat < s.cfg.nmax.toNat →
    hostRead (bufAddr b i) s = (s.wordAt b i.toNat, s) ∧
    (∀ v, ∃ t, hostWrite (bufAddr b i) v s = t ∧
      (∀ b' j, t.wordAt b' j = if b' = b ∧ j = i.toNat then v else s.wordAt b' j) ∧
      t = { s with buf0 := t.buf0, buf1 := t.buf1 })

/-- R24 and R60: a read of CMD returns 0 and changes nothing. A write is a command issue: BUSY_ACCESS while busy,
whatever the word; FAULTED while faulted; ILLEGAL_CMD for an illegal word; a legal word runs its command, the whole of
it within the write (`exec` of the decoded command). -/
def Obligations.CmdReadsZeroAndIssues : Prop :=
  ∀ s : State, hostRead (csrAddr 0) s = (0, s) ∧
    ∀ w : Word,
      (s.busy = true → hostWrite (csrAddr 0) w s = { s with err := true, errcode := 3 }) ∧
      (s.busy = false → s.fault = true → hostWrite (csrAddr 0) w s = { s with err := true, errcode := 6 }) ∧
      (s.ready → decodeCommand w = none → hostWrite (csrAddr 0) w s = { s with err := true, errcode := 1 }) ∧
      (∀ i, decodeCommand w = some i → exec i s = .next (hostWrite (csrAddr 0) w s))

/-- R61: a rejected command changes nothing except ERR and ERRCODE, for both causes: FAULTED (any word, and SORT and
PASS themselves) and ILLEGAL_CMD; SORT and PASS presented while busy change nothing else either. -/
def Obligations.RejectedCommandChangesOnlyTheError : Prop :=
  (∀ (s : State) (w : Word), s.busy = false →
      (s.fault = true → hostWrite (csrAddr 0) w s = { s with err := true, errcode := 6 }) ∧
      (s.fault = false → decodeCommand w = none → hostWrite (csrAddr 0) w s = { s with err := true, errcode := 1 })) ∧
  (∀ (s : State) (i : Instr), (i = .sort ∨ ∃ r src, i = .pass r src) →
      (s.busy = true → exec i s = .next { s with err := true, errcode := 3 }) ∧
      (s.busy = false → s.fault = true → exec i s = .next { s with err := true, errcode := 6 }))

/-! ## Commands (40_commands.md) -/

/-- R62: an accepted command loads the sequencer: SINGLE, ROUND, SRCSEL from the command, DONE <- 0, BUSY <- 1, then
PassEntry (R98): PHASE <- COUNT, IDX <- 0, nothing else written, for SORT and for every PASS; or, where the assertions are
built in and a counter is not zero (no reachable state), the fault CNT_NONZERO of R118 instead. -/
def Obligations.AcceptedCommandStartsCount : Prop :=
  ∀ s : State, s.ready →
    ((s.cfg.assertEn = true → s.countersZero) →
      exec .sort s = .next { s with single := false, round := 0, srcsel := false, done := false, busy := true,
                                    phase := 1, idx := 0 } ∧
      ∀ (r : BitVec 3) (src : Bool), WellFormed (.pass r src) →
        exec (.pass r src) s = .next { s with single := true, round := r, srcsel := src, done := false, busy := true,
                                              phase := 1, idx := 0 }) ∧
    (s.cfg.assertEn = true → ¬ s.countersZero →
      exec .sort s = .next { s with single := false, round := 0, srcsel := false, done := false, busy := false,
                                    phase := 0, idx := 0, fault := true, fcode := 1 } ∧
      ∀ (r : BitVec 3) (src : Bool), WellFormed (.pass r src) →
        exec (.pass r src) s = .next { s with single := true, round := r, srcsel := src, done := false, busy := false,
                                              phase := 0, idx := 0, fault := true, fcode := 1 })

/-! ## The four micro-operations (41_pass_phases.md, 42_round_driver.md R100) -/

/-- R77's micro-step: with IDX < LEN, COUNT reads the key at IDX of the source memory, adds 1 to the counter of its
digit, adds 1 to IDX, and changes nothing else. -/
def Obligations.CountStepCountsOneKey : Prop :=
  ∀ s : State, s.round.toNat ≤ 3 → s.idx.toNat < s.len.toNat → s.idx.toNat < s.cfg.nmax.toNat →
    (s.counter (digit (s.wordAt s.srcsel s.idx.toNat) s.round)).toNat < 2 ^ 32 - 1 →
    ∃ t, exec .count s = .next t ∧
      (∀ e, (t.counter e).toNat =
        (s.counter e).toNat + if e = digit (s.wordAt s.srcsel s.idx.toNat) s.round then 1 else 0) ∧
      t.idx.toNat = s.idx.toNat + 1 ∧ t = { s with cnt := t.cnt, idx := t.idx }

/-- R79's micro-step: with 1 ≤ IDX ≤ 255, PREFIX adds counter IDX − 1 to counter IDX, adds 1 to IDX, and changes
nothing else. -/
def Obligations.PrefixStepAddsOneCounter : Prop :=
  ∀ s : State, s.round.toNat ≤ 4 → 1 ≤ s.idx.toNat → s.idx.toNat ≤ 255 →
    (s.counter (BitVec.ofNat 8 s.idx.toNat)).toNat + (s.counter (BitVec.ofNat 8 (s.idx.toNat - 1))).toNat < 2 ^ 32 →
    ∃ t, exec .prefixSum s = .next t ∧
      (∀ e, (t.counter e).toNat =
        (s.counter e).toNat + if e.toNat = s.idx.toNat then (s.counter (e - 1)).toNat else 0) ∧
      t.idx.toNat = s.idx.toNat + 1 ∧ t = { s with cnt := t.cnt, idx := t.idx }

/-- R81's micro-step: with IDX > 0, SCATTER takes 1 from IDX, reads the key there, takes 1 from the counter of its
digit and stores the whole key in the destination memory at the decremented counter. No other word, counter or
register changes; the source memory does not change. -/
def Obligations.ScatterStepPlacesOneKey : Prop :=
  ∀ s : State, s.round.toNat ≤ 3 → 0 < s.idx.toNat → s.idx.toNat ≤ s.len.toNat → s.idx.toNat ≤ s.cfg.nmax.toNat →
    0 < (s.counter (digit (s.wordAt s.srcsel (s.idx.toNat - 1)) s.round)).toNat →
    (s.counter (digit (s.wordAt s.srcsel (s.idx.toNat - 1)) s.round)).toNat ≤ s.cfg.nmax.toNat →
    ∃ t, exec .scatter s = .next t ∧
      (∀ e, (t.counter e).toNat =
        (s.counter e).toNat - if e = digit (s.wordAt s.srcsel (s.idx.toNat - 1)) s.round then 1 else 0) ∧
      (∀ b a, t.wordAt b a =
        if b = (!s.srcsel) ∧ a + 1 = (s.counter (digit (s.wordAt s.srcsel (s.idx.toNat - 1)) s.round)).toNat then
          s.wordAt s.srcsel (s.idx.toNat - 1)
        else s.wordAt b a) ∧
      t.buf s.srcsel = s.buf s.srcsel ∧ t.idx.toNat + 1 = s.idx.toNat ∧
      t = { s with buf0 := t.buf0, buf1 := t.buf1, cnt := t.cnt, idx := t.idx }

/-- R82's micro-step: with IDX ≤ 255, CLEAR zeroes counter IDX, adds 1 to IDX, and changes nothing else. -/
def Obligations.ClearStepZeroesOneCounter : Prop :=
  ∀ s : State, s.round.toNat ≤ 4 → s.idx.toNat ≤ 255 →
    ∃ t, exec .clear s = .next t ∧
      (∀ e, t.counter e = if e.toNat = s.idx.toNat then 0 else s.counter e) ∧
      t.idx.toNat = s.idx.toNat + 1 ∧ t = { s with cnt := t.cnt, idx := t.idx }

/-- R100's boundary steps of COUNT, PREFIX and SCATTER: they move to the next phase, load IDX with 1, LEN and 0, and
touch nothing else. -/
def Obligations.BoundaryStepsEnterTheNextPhase : Prop :=
  ∀ s : State, s.round.toNat ≤ 4 →
    (s.idx = s.len → exec .count s = .next { s with phase := 2, idx := 1 }) ∧
    (s.idx = 256 → exec .prefixSum s = .next { s with phase := 3, idx := s.len }) ∧
    (s.idx = 0 → exec .scatter s = .next { s with phase := 4, idx := 0 })

/-- R99: PassEnd, the step of CLEAR at IDX = 256: ROUND + 1, SRCSEL inverted, IDX <- 0, then completion for a PASS or
when the new ROUND is 4, else PassEntry (R98): the next round's COUNT, or, where the assertions are built in, the fault
ROUND_RANGE for a ROUND above 3, tested first, or CNT_NONZERO for a counter that is not zero (R117, R118); only states
outside the invariants do that. -/
def Obligations.PassEndCompletesOrContinues : Prop :=
  ∀ s : State, s.round.toNat ≤ 4 → s.idx = 256 →
    (s.single = true ∨ s.round = 3 →
      exec .clear s = .next { s with round := s.round + 1, srcsel := !s.srcsel, idx := 0, phase := 0, busy := false,
                                     done := true }) ∧
    (s.single = false → s.round ≠ 3 →
      ((s.cfg.assertEn = true → s.round.toNat < 3 ∧ s.countersZero) →
        exec .clear s = .next { s with round := s.round + 1, srcsel := !s.srcsel, idx := 0, phase := 1 }) ∧
      (s.cfg.assertEn = true → s.round = 4 →
        exec .clear s = .next { s with round := 5, srcsel := !s.srcsel, busy := false, phase := 0, idx := 0,
                                       fault := true, fcode := 2 }) ∧
      (s.cfg.assertEn = true → s.round.toNat < 3 → ¬ s.countersZero →
        exec .clear s = .next { s with round := s.round + 1, srcsel := !s.srcsel, busy := false, phase := 0, idx := 0,
                                       fault := true, fcode := 1 }))

/-- 93_implementation_defined.md U4 and U15: in states outside the invariants a micro-operation, or the engine's turn,
stops with a named fault: an index at or above NMAX, a counter past its range, an unused ROUND or PHASE code. That IDX
outside its phase's range, a key step with ROUND = 4 and BUSY = 1 with PHASE = IDLE stop too is the model's choice
(logs 9, 10, 11). -/
def Obligations.EngineFaultsOutsideTheInvariants : Prop :=
  ∀ s : State,
    (s.round.toNat ≤ 3 → s.idx.toNat < s.len.toNat → s.cfg.nmax.toNat ≤ s.idx.toNat →
      exec .count s = .fault .memIndex) ∧
    (s.round.toNat ≤ 3 → s.idx.toNat < s.len.toNat → s.idx.toNat < s.cfg.nmax.toNat →
      (s.counter (digit (s.wordAt s.srcsel s.idx.toNat) s.round)).toNat = 2 ^ 32 - 1 →
      exec .count s = .fault .counterOverflow) ∧
    (s.round.toNat ≤ 4 → 1 ≤ s.idx.toNat → s.idx.toNat ≤ 255 →
      2 ^ 32 ≤ (s.counter (BitVec.ofNat 8 s.idx.toNat)).toNat +
        (s.counter (BitVec.ofNat 8 (s.idx.toNat - 1))).toNat →
      exec .prefixSum s = .fault .counterOverflow) ∧
    (s.round.toNat ≤ 3 → 0 < s.idx.toNat → s.idx.toNat ≤ s.len.toNat → s.idx.toNat ≤ s.cfg.nmax.toNat →
      s.counter (digit (s.wordAt s.srcsel (s.idx.toNat - 1)) s.round) = 0 →
      exec .scatter s = .fault .counterUnderflow) ∧
    (s.round.toNat ≤ 3 → 0 < s.idx.toNat → s.idx.toNat ≤ s.len.toNat → s.cfg.nmax.toNat < s.idx.toNat →
      exec .scatter s = .fault .memIndex) ∧
    (s.round.toNat ≤ 3 → 0 < s.idx.toNat → s.idx.toNat ≤ s.len.toNat → s.idx.toNat ≤ s.cfg.nmax.toNat →
      s.cfg.nmax.toNat < (s.counter (digit (s.wordAt s.srcsel (s.idx.toNat - 1)) s.round)).toNat →
      exec .scatter s = .fault .memIndex) ∧
    (5 ≤ s.round.toNat →
      exec .count s = .fault .roundCode ∧ exec .prefixSum s = .fault .roundCode ∧
      exec .scatter s = .fault .roundCode ∧ exec .clear s = .fault .roundCode) ∧
    (s.round = 4 → s.idx.toNat < s.len.toNat → exec .count s = .fault .digitRound) ∧
    (s.round = 4 → 0 < s.idx.toNat → s.idx.toNat ≤ s.len.toNat → exec .scatter s = .fault .digitRound) ∧
    (s.round.toNat ≤ 4 →
      (s.len.toNat < s.idx.toNat → exec .count s = .fault .idxRange ∧ exec .scatter s = .fault .idxRange) ∧
      (s.idx = 0 → exec .prefixSum s = .fault .idxRange) ∧
      (256 < s.idx.toNat → exec .prefixSum s = .fault .idxRange ∧ exec .clear s = .fault .idxRange)) ∧
    (s.engineNext = true → s.busy = true →
      (5 ≤ s.phase.toNat → step s = .fault .phaseCode) ∧ (s.phase = phaseIdle → step s = .fault .busyIdle))

/-! ## Frames -/

/-- The frame of SORT and PASS, in every state, accepted or refused (R61, R62): no word of either key memory, no
counter and no register changes but SINGLE, ROUND, SRCSEL, DONE, BUSY, PHASE, IDX (accepted), FAULT, FCODE (a failed
assertion), ERR, ERRCODE (refused). An accepted command leaves ERR and ERRCODE, a refused one everything else. -/
def Obligations.CommandFrame : Prop :=
  ∀ (i : Instr) (s t : State), (i = .sort ∨ ∃ r src, i = .pass r src) → exec i s = .next t →
    (∀ b a, t.wordAt b a = s.wordAt b a) ∧ (∀ d, t.counter d = s.counter d) ∧
    t.len = s.len ∧ t.cfg = s.cfg ∧ t.draws = s.draws ∧ t.schedule = s.schedule ∧ t.returned = s.returned ∧
    (s.ready → t.err = s.err ∧ t.errcode = s.errcode) ∧
    (¬ s.ready → t = { s with err := t.err, errcode := t.errcode })

/-- The frame of COUNT, PREFIX and CLEAR, in every state in which they go on (R77, R79, R82, R99): no word of either
key memory changes; LEN, SINGLE, ERR, ERRCODE and the parameters do not change; BUSY, DONE, FAULT, FCODE, ROUND and
SRCSEL change only in CLEAR at IDX = 256 (PassEnd). -/
def Obligations.CountPrefixClearFrame : Prop :=
  ∀ (i : Instr) (s t : State), i = .count ∨ i = .prefixSum ∨ i = .clear → exec i s = .next t →
    (∀ b a, t.wordAt b a = s.wordAt b a) ∧
    t.len = s.len ∧ t.single = s.single ∧ t.err = s.err ∧ t.errcode = s.errcode ∧ t.cfg = s.cfg ∧
    t.draws = s.draws ∧ t.schedule = s.schedule ∧ t.returned = s.returned ∧
    (i = .clear → s.idx.toNat ≤ 255 → t.phase = s.phase) ∧
    (¬ (i = .clear ∧ s.idx = 256) →
      t.busy = s.busy ∧ t.done = s.done ∧ t.fault = s.fault ∧ t.fcode = s.fcode ∧ t.round = s.round ∧
      t.srcsel = s.srcsel)

/-- The frame of SCATTER, in every state in which it goes on (R81, R90): the store goes to the destination memory at
the address `storeIndex` gives for the key at IDX − 1 (nowhere at the boundary step, IDX = 0); every other word of both
memories reads as before; the register frame is that of the other phases, ROUND, SRCSEL and the flags included. -/
def Obligations.ScatterFrame : Prop :=
  ∀ s t : State, exec .scatter s = .next t →
    (∀ b a, ¬ (0 < s.idx.toNat ∧ b = s.dst ∧ a = s.storeIndex (s.idx.toNat - 1)) → t.wordAt b a = s.wordAt b a) ∧
    (∀ d, ¬ (0 < s.idx.toNat ∧ d = s.dig (s.idx.toNat - 1)) → t.counter d = s.counter d) ∧
    t.len = s.len ∧ t.single = s.single ∧ t.err = s.err ∧ t.errcode = s.errcode ∧ t.cfg = s.cfg ∧
    t.draws = s.draws ∧ t.schedule = s.schedule ∧ t.returned = s.returned ∧
    t.busy = s.busy ∧ t.done = s.done ∧ t.fault = s.fault ∧ t.fcode = s.fcode ∧ t.round = s.round ∧
    t.srcsel = s.srcsel

/-- R13 and R19: a host access never writes a counter, and writes the sequencer position only by an accepted command;
LEN is written by no engine step (R20) and the parameters by nothing (R5), over all events. -/
def Obligations.HostAccessesLeaveCountersAndPosition : Prop :=
  ∀ s t : State, step s = .next t →
    t.cfg = s.cfg ∧
    (s.engineNext = true → t.len = s.len) ∧
    ((∃ ha v rest, s.schedule = .write ha v :: rest) ∨ (∃ ha rest, s.schedule = .read ha :: rest) →
      t.cnt = s.cnt ∧
      ((t.round, t.phase, t.idx, t.srcsel, t.single) ≠ (s.round, s.phase, s.idx, s.srcsel, s.single) →
        s.ready ∧ ∃ w rest i, s.schedule = .write (csrAddr 0) w :: rest ∧ decodeCommand w = some i))

/-! ## Reset (70_reset_and_hazards.md R130, R131) -/

/-- A RESET in any state, busy or faulted, sets every register and counter to 0 and makes every word of both key
memories a freshly drawn unspecified value (the free value `Config.resetWord`, log 2); the parameters stay; STATUS, LEN
and CMD read 0, CAP reads NMAX, `done` is low. The count of draws and the schedule are the model's (logs 3, 4, 16). -/
def Obligations.ResetSetsEveryRegister : Prop :=
  ∀ (s : State) (rest : List Event), s.schedule = .reset :: rest →
    ∃ t, step s = .next t ∧
      (∀ d, t.counter d = 0) ∧ t.len = 0 ∧ t.round = 0 ∧ t.phase = 0 ∧ t.idx = 0 ∧ t.srcsel = false ∧
      t.single = false ∧ t.busy = false ∧ t.done = false ∧ t.err = false ∧ t.errcode = 0 ∧ t.fault = false ∧
      t.fcode = 0 ∧ (∀ b i, t.wordAt b i = Config.resetWord (s.draws + 1) b i) ∧ t.cfg = s.cfg ∧
      t.draws = s.draws + 1 ∧ t.schedule = rest ∧ t.returned = s.returned ∧
      hostRead (csrAddr 0) t = (0, t) ∧ hostRead (csrAddr 1) t = (0, t) ∧ hostRead (csrAddr 2) t = (0, t) ∧
      hostRead (csrAddr 3) t = (t.cfg.nmax, t) ∧ t.doneOutput = false

/-! ## Invariants -/

/-- The invariant holds right after reset, for any parameters, any drawn contents and any schedule, and at
`State.reset`. -/
def Obligations.InvariantHoldsAfterReset : Prop :=
  Inv State.reset ∧
  ∀ (c : Config) (k : Nat) (evs : List Event), c.wf →
    Inv { State.resetWith c with draws := k, schedule := evs }

/-- Every step keeps the invariant: R101, with R14, R20, R22, the canonical form of the key memories, and what the
running phase has made of every counter and every placed key (42_round_driver.md section 3; 41_pass_phases.md sections
3 to 7). Over every state that meets it, whatever event comes. -/
def Obligations.StepKeepsTheInvariant : Prop :=
  ∀ s t : State, Inv s → step s = .next t → Inv t

/-- In a state that meets the invariant no step faults or refuses: no counter overflows or underflows and no index
reaches NMAX (the range lemma of 41_pass_phases.md section 7). -/
def Obligations.InvariantStatesNeverFault : Prop :=
  ∀ s : State, Inv s → ∃ t, step s = .next t

/-- The sequencer invariants of 42_round_driver.md section 3 ("Sequencer invariants in every reachable state"), the
counter invariant of 10_state.md section 3 ("in every reachable state with PHASE = IDLE, and at every pass entry,
CNT[d] = 0 for all d in 0..255") and FAULT = 0, FCODE = 0 of 60_exceptions.md section 3, in every reachable state. -/
def Obligations.ReachableStatesMeetTheSequencerInvariants : Prop :=
  ∀ s : State, Reachable s →
    SequencerInv s ∧ (s.phase = phaseIdle ∨ (s.phase = phaseCount ∧ s.idx = 0) → s.countersZero) ∧
    s.fault = false ∧ s.fcode = 0 ∧ s.len.toNat ≤ s.cfg.nmax.toNat ∧ s.phase.toNat ≤ 4 ∧
    (s.err = false → s.errcode = 0) ∧ ∃ t, step s = .next t

/-- 60_exceptions.md section 3 ("the engine with ASSERT_EN = 1 and the engine with ASSERT_EN = 0 have the same
reachable states"): in a state that meets the invariant a step does the same in both builds. -/
def Obligations.AssertionsDoNotChangeTheStep : Prop :=
  ∀ (s t : State) (e : Bool), Inv s → step s = .next t →
    step { s with cfg := { s.cfg with assertEn := e } } = .next { t with cfg := { t.cfg with assertEn := e } }

/-! ## Rules over the whole machine -/

/-- FAULT is never cleared by any access or engine step (R118): only a reset clears it. -/
def Obligations.OnlyResetClearsFault : Prop :=
  ∀ s t : State, step s = .next t → s.fault = true → (∀ rest, s.schedule ≠ .reset :: rest) → t.fault = true

/-- DONE, and the `done` output with it, rises only at command completion and falls only by a write to STATUS with bit
1 set, the acceptance of a command, or reset (R21, R120). -/
def Obligations.DoneRisesAndFallsAsStated : Prop :=
  ∀ s t : State, step s = .next t →
    t.doneOutput = t.done ∧
    (s.done = false → t.done = true →
      s.engineNext = true ∧ s.busy = true ∧ s.phase = phaseClear ∧ s.idx = 256 ∧ t.busy = false ∧ t.phase = phaseIdle) ∧
    (s.done = true → t.done = false →
      (∃ rest, s.schedule = .reset :: rest) ∨
      (∃ v rest, s.schedule = .write (csrAddr 1) v :: rest ∧ v.getLsbD 1 = true) ∨
      (s.ready ∧ ∃ w rest i, s.schedule = .write (csrAddr 0) w :: rest ∧ decodeCommand w = some i))

/-- Ownership changes at command acceptance and at completion or fault, and no other way but reset (R122): BUSY rises
only by an accepted command and falls only at the end of a pass or by reset. -/
def Obligations.BusyRisesAndFallsAsStated : Prop :=
  ∀ s t : State, step s = .next t →
    (s.busy = false → t.busy = true →
      s.fault = false ∧ ∃ w rest i, s.schedule = .write (csrAddr 0) w :: rest ∧ decodeCommand w = some i) ∧
    (s.busy = true → t.busy = false →
      (∃ rest, s.schedule = .reset :: rest) ∨
      (s.engineNext = true ∧ s.phase = phaseClear ∧ s.idx = 256 ∧ (t.done = true ∨ t.fault = true)))

/-- R113: a host access while a command runs leaves everything the engine reads or writes as it was: the engine's next
step is the one it would have taken. -/
def Obligations.BusyHostAccessLeavesTheEngine : Prop :=
  ∀ s : State, s.busy = true → s.done = false →
    (∃ ha v rest, s.schedule = .write ha v :: rest) ∨ (∃ ha rest, s.schedule = .read ha :: rest) →
    ∃ t, step s = .next t ∧ t.engineView = s.engineView

/-- The engine's step does not depend on the error state, on what the host has read or on what the host will do: two
states with the same engine view take the same engine step (R21, R115: ERR never blocks anything). -/
def Obligations.EngineStepIgnoresTheErrorState : Prop :=
  ∀ s s' t : State, s.engineView = s'.engineView → s.busy = true → s.engineNext = true → s'.engineNext = true →
    step s = .next t → ∃ t', step s' = .next t' ∧ t'.engineView = t.engineView

/-- R103: the path through the sequencer depends only on the command and on LEN, not on key values: two states that
meet the invariant and agree on position, command, LEN and flags agree on them after the engine's step. -/
def Obligations.PathDoesNotDependOnKeys : Prop :=
  ∀ s s' t t' : State, Inv s → Inv s' → s.control = s'.control → s.busy = true → s.engineNext = true →
    s'.engineNext = true → step s = .next t → step s' = .next t' → t.control = t'.control

/-! ## Phases and passes to their ends (41_pass_phases.md) -/

/-- 41_pass_phases.md section 3 ("At the end of COUNT, for every d in 0..255, CNT[d] = count[d]"): from pass entry, N
steps of the engine alone leave the histogram of the active digit, and nothing but CNT and IDX changed. -/
def Obligations.CountLeavesTheHistogram : Prop :=
  ∀ s : State, AtPassEntry s → s.alone →
    ∃ t, runSteps s.len.toNat s = .next t ∧
      (∀ d, (t.counter d).toNat = s.histogram d) ∧
      ((List.range 256).map (fun d => (t.counter (BitVec.ofNat 8 d)).toNat)).sum = s.len.toNat ∧
      t = { s with cnt := t.cnt, idx := s.len }

/-- 41_pass_phases.md section 4 ("At the end of PREFIX, for every d, CNT[d] = incl[d]"): after N + 256 steps from pass
entry CNT[d] is the number of keys with digit ≤ d, CNT[255] = N, non-decreasing. -/
def Obligations.PrefixLeavesTheInclusiveSums : Prop :=
  ∀ s : State, AtPassEntry s → s.alone →
    ∃ t, runSteps (s.len.toNat + 256) s = .next t ∧ t.phase = phasePrefixSum ∧ t.idx = 256 ∧
      (∀ d, (t.counter d).toNat = s.incl d) ∧ (t.counter 255).toNat = s.len.toNat ∧
      (∀ d e : Digit, d ≤ e → (t.counter d).toNat ≤ (t.counter e).toNat) ∧
      (∀ d, s.incl d = s.excl d + s.histogram d) ∧
      t = { s with cnt := t.cnt, phase := t.phase, idx := t.idx }

/-- 41_pass_phases.md section 7 ("At the end of SCATTER, CNT[d] = excl[d]" and the closed form of the pass): after
2N + 257 steps from pass entry every key stands at `p(i)` in the destination memory, the source memory and every word
at index ≥ N are as before, and each counter is the number of keys with a smaller digit. -/
def Obligations.ScatterPlacesEveryKey : Prop :=
  ∀ s : State, AtPassEntry s → s.alone →
    ∃ t, runSteps (2 * s.len.toNat + 257) s = .next t ∧ t.phase = phaseScatter ∧ t.idx = 0 ∧
      (∀ i, i < s.len.toNat → t.wordAt (!s.srcsel) (s.rank i) = s.wordAt s.srcsel i) ∧
      t.buf s.srcsel = s.buf s.srcsel ∧
      (∀ a, s.len.toNat ≤ a → t.wordAt (!s.srcsel) a = s.wordAt (!s.srcsel) a) ∧
      (∀ d, (t.counter d).toNat = s.excl d)

/-- 41_pass_phases.md section 7 ("p is a bijection on 0..N−1"): `p` maps 0..N − 1 one to one into 0..N − 1, orders
different digits and keeps the source order of equal digits: the stability of the pass. -/
def Obligations.RankIsAStablePermutation : Prop :=
  ∀ s : State,
    (∀ i, i < s.len.toNat → s.rank i < s.len.toNat) ∧
    (∀ i j, i < s.len.toNat → j < s.len.toNat → s.rank i = s.rank j → i = j) ∧
    (∀ i j, i < s.len.toNat → j < s.len.toNat → s.dig i < s.dig j → s.rank i < s.rank j) ∧
    (∀ i j, i < j → j < s.len.toNat → s.dig i = s.dig j → s.rank i < s.rank j)

/-- R64 with the closed form of 41_pass_phases.md section 7: an accepted PASS r, s completes after 2N + 515 steps of
the engine alone with the keys of BUFs stably rearranged by digit r in BUF(1 − s), BUFs and all words at index ≥ N
unchanged, CNT zero, ROUND = r + 1, SRCSEL = 1 − s, SINGLE = 1, and nothing else changed. -/
def Obligations.PassRearrangesByItsDigit : Prop :=
  ∀ (s : State) (r : BitVec 3) (src : Bool), s.ready → s.countersZero → s.len.toNat ≤ s.cfg.nmax.toNat →
    s.alone → WellFormed (.pass r src) →
    ∃ t u, exec (.pass r src) s = .next t ∧ runSteps (2 * s.len.toNat + 515) t = .next u ∧
      (∀ i, i < s.len.toNat → u.wordAt (!src) (t.rank i) = s.wordAt src i) ∧
      u.buf src = s.buf src ∧ (∀ a, s.len.toNat ≤ a → u.wordAt (!src) a = s.wordAt (!src) a) ∧
      (u.seq (!src)).Perm (s.seq src) ∧ (u.seq (!src)).Pairwise (fun x y => digit x r ≤ digit y r) ∧
      u.countersZero ∧
      u = { s with buf0 := u.buf0, buf1 := u.buf1, cnt := u.cnt, round := r + 1, srcsel := !src, single := true,
                   phase := 0, idx := 0, busy := false, done := true }

/-- 42_round_driver.md section 3 ("Agreement of the two levels"): from acceptance, the engine alone reaches completion
in the state the big-step pseudocode of SORT and of PASS gives, key memories, counters and registers alike. -/
def Obligations.MicroStepsAgreeWithBigSteps : Prop :=
  ∀ s t : State, Inv s → s.busy = false → s.alone →
    (exec .sort s = .next t → runSteps (8 * s.len.toNat + 2060) t = .next (bigSort s)) ∧
    (∀ (r : BitVec 3) (src : Bool), WellFormed (.pass r src) → exec (.pass r src) s = .next t →
      runSteps (2 * s.len.toNat + 515) t = .next (bigPassCommand r src s))

/-! ## SORT (40_commands.md sections 2 and 4) -/

/-- SORT's contract (40_commands.md section 4: "at completion BUF0[0..N−1] is the ascending arrangement of K under
unsigned 32-bit comparison") with R63's end state: an accepted SORT completes after 8N + 2060 steps of the engine alone
with BUF0[0..N − 1] a permutation of what it was, ascending; every word at index ≥ N unchanged; CNT zero, ROUND = 4,
SRCSEL = 0, SINGLE = 0, and nothing else changed. -/
def Obligations.SortSorts : Prop :=
  ∀ s : State, Inv s → s.busy = false → s.alone →
    ∃ t u, exec .sort s = .next t ∧ runSteps (8 * s.len.toNat + 2060) t = .next u ∧
      (u.seq false).Perm (s.seq false) ∧ (u.seq false).Pairwise (fun x y => x ≤ y) ∧
      (∀ b a, s.len.toNat ≤ a → u.wordAt b a = s.wordAt b a) ∧
      u.countersZero ∧
      u = { s with buf0 := u.buf0, buf1 := u.buf1, cnt := u.cnt, round := 4, srcsel := false, single := false,
                   phase := 0, idx := 0, busy := false, done := true }

/-- 40_commands.md section 4 ("BUF1[0..N−1] holds the output of round 2, that is the input keys stably sorted on
their low 24 bits"): what a completed SORT leaves in the scratch memory. -/
def Obligations.SortLeavesLow24SortedInScratch : Prop :=
  ∀ s : State, Inv s → s.busy = false → s.alone →
    ∃ t u, exec .sort s = .next t ∧ runSteps (8 * s.len.toNat + 2060) t = .next u ∧
      u.seq true = (s.seq false).mergeSort (fun x y => decide (x.extractLsb' 0 24 ≤ y.extractLsb' 0 24))

/-- 40_commands.md section 4 ("SORT equals four PASS commands"): SORT and PASS 0,0; PASS 1,1; PASS 2,0; PASS 3,1, each
run to completion, leave identical states except SINGLE. -/
def Obligations.SortEqualsFourPasses : Prop :=
  ∀ s : State, Inv s → s.busy = false → s.alone →
    ∃ t u t0 u0 t1 u1 t2 u2 t3 u3,
      exec .sort s = .next t ∧ runSteps (8 * s.len.toNat + 2060) t = .next u ∧
      exec (.pass 0 false) s = .next t0 ∧ runSteps (2 * s.len.toNat + 515) t0 = .next u0 ∧
      exec (.pass 1 true) u0 = .next t1 ∧ runSteps (2 * s.len.toNat + 515) t1 = .next u1 ∧
      exec (.pass 2 false) u1 = .next t2 ∧ runSteps (2 * s.len.toNat + 515) t2 = .next u2 ∧
      exec (.pass 3 true) u2 = .next t3 ∧ runSteps (2 * s.len.toNat + 515) t3 = .next u3 ∧
      u3 = { u with single := true }

/-- 40_commands.md section 4 ("Running SORT again on its own output changes nothing in BUF0[0..N−1]"): a SORT of an
ascending sequence leaves it as it is. -/
def Obligations.SortOfSortedChangesNothing : Prop :=
  ∀ s : State, Inv s → s.busy = false → s.alone → (s.seq false).Pairwise (fun x y => x ≤ y) →
    ∃ t u, exec .sort s = .next t ∧ runSteps (8 * s.len.toNat + 2060) t = .next u ∧ u.seq false = s.seq false

/-- R88: with N = 0 a SORT takes 2060 steps and a PASS 515, ends normally, and touches no word of memory. -/
def Obligations.EmptySequenceIsANoOp : Prop :=
  ∀ s : State, Inv s → s.busy = false → s.alone → s.len = 0 →
    (∃ t u, exec .sort s = .next t ∧ runSteps 2060 t = .next u ∧
      u = { s with round := 4, srcsel := false, single := false, phase := 0, idx := 0, busy := false, done := true }) ∧
    (∀ (r : BitVec 3) (src : Bool), WellFormed (.pass r src) →
      ∃ t u, exec (.pass r src) s = .next t ∧ runSteps 515 t = .next u ∧
        u = { s with round := r + 1, srcsel := !src, single := true, phase := 0, idx := 0, busy := false, done := true })

/-! ## Completion of a command -/

/-- 70_reset_and_hazards.md section 5 (the step counts of the reference sequencer): every engine step of a running
command brings its completion one step nearer, and the counts start at 8N + 2060 for SORT and 2N + 515 for PASS. -/
def Obligations.EngineStepsCountDown : Prop :=
  (∀ s t : State, Inv s → s.busy = true → s.engineNext = true → step s = .next t →
    t.stepsLeft + 1 = s.stepsLeft) ∧
  (∀ s t : State, Inv s → s.busy = false → exec .sort s = .next t → t.stepsLeft = 8 * s.len.toNat + 2060) ∧
  (∀ (s t : State) (r : BitVec 3) (src : Bool), Inv s → s.busy = false → WellFormed (.pass r src) →
    exec (.pass r src) s = .next t → t.stepsLeft = 2 * s.len.toNat + 515)

/-- R68 and R104: a running command completes: the engine alone reaches, in exactly `stepsLeft` steps, an ended run
with DONE = 1, CNT zero and LEN unchanged; it is a good end unless an access was refused. -/
def Obligations.RunningCommandCompletes : Prop :=
  ∀ s : State, Inv s → s.busy = true → s.alone →
    ∃ t, runSteps s.stepsLeft s = .next t ∧ t.ended ∧ t.done = true ∧ t.countersZero ∧ t.len = s.len ∧
      (s.err = false → t.goodEnd) ∧ (s.single = false → t.round = 4 ∧ t.srcsel = false)
end

