-- ==== Sys2Proof/Laws/State.lean ====
section
/-! SUPPORT. One lemma per field per update of the state, each true by unfolding the update once. -/

namespace Sys2Proof.Machine

/-! ## setBuf -/

@[simp] theorem State.setBuf_cnt (s : State) (b : Bool) (m : Memory) : (s.setBuf b m).cnt = s.cnt := by cases b <;> rfl
@[simp] theorem State.setBuf_len (s : State) (b : Bool) (m : Memory) : (s.setBuf b m).len = s.len := by cases b <;> rfl
@[simp] theorem State.setBuf_round (s : State) (b : Bool) (m : Memory) : (s.setBuf b m).round = s.round := by cases b <;> rfl
@[simp] theorem State.setBuf_phase (s : State) (b : Bool) (m : Memory) : (s.setBuf b m).phase = s.phase := by cases b <;> rfl
@[simp] theorem State.setBuf_idx (s : State) (b : Bool) (m : Memory) : (s.setBuf b m).idx = s.idx := by cases b <;> rfl
@[simp] theorem State.setBuf_srcsel (s : State) (b : Bool) (m : Memory) : (s.setBuf b m).srcsel = s.srcsel := by cases b <;> rfl
@[simp] theorem State.setBuf_single (s : State) (b : Bool) (m : Memory) : (s.setBuf b m).single = s.single := by cases b <;> rfl
@[simp] theorem State.setBuf_busy (s : State) (b : Bool) (m : Memory) : (s.setBuf b m).busy = s.busy := by cases b <;> rfl
@[simp] theorem State.setBuf_done (s : State) (b : Bool) (m : Memory) : (s.setBuf b m).done = s.done := by cases b <;> rfl
@[simp] theorem State.setBuf_err (s : State) (b : Bool) (m : Memory) : (s.setBuf b m).err = s.err := by cases b <;> rfl
@[simp] theorem State.setBuf_errcode (s : State) (b : Bool) (m : Memory) : (s.setBuf b m).errcode = s.errcode := by cases b <;> rfl
@[simp] theorem State.setBuf_fault (s : State) (b : Bool) (m : Memory) : (s.setBuf b m).fault = s.fault := by cases b <;> rfl
@[simp] theorem State.setBuf_fcode (s : State) (b : Bool) (m : Memory) : (s.setBuf b m).fcode = s.fcode := by cases b <;> rfl
@[simp] theorem State.setBuf_cfg (s : State) (b : Bool) (m : Memory) : (s.setBuf b m).cfg = s.cfg := by cases b <;> rfl
@[simp] theorem State.setBuf_draws (s : State) (b : Bool) (m : Memory) : (s.setBuf b m).draws = s.draws := by cases b <;> rfl
@[simp] theorem State.setBuf_schedule (s : State) (b : Bool) (m : Memory) : (s.setBuf b m).schedule = s.schedule := by cases b <;> rfl
@[simp] theorem State.setBuf_returned (s : State) (b : Bool) (m : Memory) : (s.setBuf b m).returned = s.returned := by cases b <;> rfl

/-! ## writeWord -/

@[simp] theorem State.writeWord_cnt (s : State) (b : Bool) (i : Nat) (v : Word) : (s.writeWord b i v).cnt = s.cnt := by cases b <;> rfl
@[simp] theorem State.writeWord_len (s : State) (b : Bool) (i : Nat) (v : Word) : (s.writeWord b i v).len = s.len := by cases b <;> rfl
@[simp] theorem State.writeWord_round (s : State) (b : Bool) (i : Nat) (v : Word) : (s.writeWord b i v).round = s.round := by cases b <;> rfl
@[simp] theorem State.writeWord_phase (s : State) (b : Bool) (i : Nat) (v : Word) : (s.writeWord b i v).phase = s.phase := by cases b <;> rfl
@[simp] theorem State.writeWord_idx (s : State) (b : Bool) (i : Nat) (v : Word) : (s.writeWord b i v).idx = s.idx := by cases b <;> rfl
@[simp] theorem State.writeWord_srcsel (s : State) (b : Bool) (i : Nat) (v : Word) : (s.writeWord b i v).srcsel = s.srcsel := by cases b <;> rfl
@[simp] theorem State.writeWord_single (s : State) (b : Bool) (i : Nat) (v : Word) : (s.writeWord b i v).single = s.single := by cases b <;> rfl
@[simp] theorem State.writeWord_busy (s : State) (b : Bool) (i : Nat) (v : Word) : (s.writeWord b i v).busy = s.busy := by cases b <;> rfl
@[simp] theorem State.writeWord_done (s : State) (b : Bool) (i : Nat) (v : Word) : (s.writeWord b i v).done = s.done := by cases b <;> rfl
@[simp] theorem State.writeWord_err (s : State) (b : Bool) (i : Nat) (v : Word) : (s.writeWord b i v).err = s.err := by cases b <;> rfl
@[simp] theorem State.writeWord_errcode (s : State) (b : Bool) (i : Nat) (v : Word) : (s.writeWord b i v).errcode = s.errcode := by cases b <;> rfl
@[simp] theorem State.writeWord_fault (s : State) (b : Bool) (i : Nat) (v : Word) : (s.writeWord b i v).fault = s.fault := by cases b <;> rfl
@[simp] theorem State.writeWord_fcode (s : State) (b : Bool) (i : Nat) (v : Word) : (s.writeWord b i v).fcode = s.fcode := by cases b <;> rfl
@[simp] theorem State.writeWord_cfg (s : State) (b : Bool) (i : Nat) (v : Word) : (s.writeWord b i v).cfg = s.cfg := by cases b <;> rfl
@[simp] theorem State.writeWord_draws (s : State) (b : Bool) (i : Nat) (v : Word) : (s.writeWord b i v).draws = s.draws := by cases b <;> rfl
@[simp] theorem State.writeWord_schedule (s : State) (b : Bool) (i : Nat) (v : Word) : (s.writeWord b i v).schedule = s.schedule := by cases b <;> rfl
@[simp] theorem State.writeWord_returned (s : State) (b : Bool) (i : Nat) (v : Word) : (s.writeWord b i v).returned = s.returned := by cases b <;> rfl

/-! ## setCounter -/

@[simp] theorem State.setCounter_buf0 (s : State) (d : Digit) (v : Word) : (s.setCounter d v).buf0 = s.buf0 := rfl
@[simp] theorem State.setCounter_buf1 (s : State) (d : Digit) (v : Word) : (s.setCounter d v).buf1 = s.buf1 := rfl
@[simp] theorem State.setCounter_cnt (s : State) (d : Digit) (v : Word) : (s.setCounter d v).cnt = s.cnt.set d.toNat v d.isLt := rfl
@[simp] theorem State.setCounter_len (s : State) (d : Digit) (v : Word) : (s.setCounter d v).len = s.len := rfl
@[simp] theorem State.setCounter_round (s : State) (d : Digit) (v : Word) : (s.setCounter d v).round = s.round := rfl
@[simp] theorem State.setCounter_phase (s : State) (d : Digit) (v : Word) : (s.setCounter d v).phase = s.phase := rfl
@[simp] theorem State.setCounter_idx (s : State) (d : Digit) (v : Word) : (s.setCounter d v).idx = s.idx := rfl
@[simp] theorem State.setCounter_srcsel (s : State) (d : Digit) (v : Word) : (s.setCounter d v).srcsel = s.srcsel := rfl
@[simp] theorem State.setCounter_single (s : State) (d : Digit) (v : Word) : (s.setCounter d v).single = s.single := rfl
@[simp] theorem State.setCounter_busy (s : State) (d : Digit) (v : Word) : (s.setCounter d v).busy = s.busy := rfl
@[simp] theorem State.setCounter_done (s : State) (d : Digit) (v : Word) : (s.setCounter d v).done = s.done := rfl
@[simp] theorem State.setCounter_err (s : State) (d : Digit) (v : Word) : (s.setCounter d v).err = s.err := rfl
@[simp] theorem State.setCounter_errcode (s : State) (d : Digit) (v : Word) : (s.setCounter d v).errcode = s.errcode := rfl
@[simp] theorem State.setCounter_fault (s : State) (d : Digit) (v : Word) : (s.setCounter d v).fault = s.fault := rfl
@[simp] theorem State.setCounter_fcode (s : State) (d : Digit) (v : Word) : (s.setCounter d v).fcode = s.fcode := rfl
@[simp] theorem State.setCounter_cfg (s : State) (d : Digit) (v : Word) : (s.setCounter d v).cfg = s.cfg := rfl
@[simp] theorem State.setCounter_draws (s : State) (d : Digit) (v : Word) : (s.setCounter d v).draws = s.draws := rfl
@[simp] theorem State.setCounter_schedule (s : State) (d : Digit) (v : Word) : (s.setCounter d v).schedule = s.schedule := rfl
@[simp] theorem State.setCounter_returned (s : State) (d : Digit) (v : Word) : (s.setCounter d v).returned = s.returned := rfl

/-! ## enterPhase -/

@[simp] theorem State.enterPhase_buf0 (s : State) (p : BitVec 3) (i : Word) : (s.enterPhase p i).buf0 = s.buf0 := rfl
@[simp] theorem State.enterPhase_buf1 (s : State) (p : BitVec 3) (i : Word) : (s.enterPhase p i).buf1 = s.buf1 := rfl
@[simp] theorem State.enterPhase_cnt (s : State) (p : BitVec 3) (i : Word) : (s.enterPhase p i).cnt = s.cnt := rfl
@[simp] theorem State.enterPhase_len (s : State) (p : BitVec 3) (i : Word) : (s.enterPhase p i).len = s.len := rfl
@[simp] theorem State.enterPhase_round (s : State) (p : BitVec 3) (i : Word) : (s.enterPhase p i).round = s.round := rfl
@[simp] theorem State.enterPhase_phase (s : State) (p : BitVec 3) (i : Word) : (s.enterPhase p i).phase = p := rfl
@[simp] theorem State.enterPhase_idx (s : State) (p : BitVec 3) (i : Word) : (s.enterPhase p i).idx = i := rfl
@[simp] theorem State.enterPhase_srcsel (s : State) (p : BitVec 3) (i : Word) : (s.enterPhase p i).srcsel = s.srcsel := rfl
@[simp] theorem State.enterPhase_single (s : State) (p : BitVec 3) (i : Word) : (s.enterPhase p i).single = s.single := rfl
@[simp] theorem State.enterPhase_busy (s : State) (p : BitVec 3) (i : Word) : (s.enterPhase p i).busy = s.busy := rfl
@[simp] theorem State.enterPhase_done (s : State) (p : BitVec 3) (i : Word) : (s.enterPhase p i).done = s.done := rfl
@[simp] theorem State.enterPhase_err (s : State) (p : BitVec 3) (i : Word) : (s.enterPhase p i).err = s.err := rfl
@[simp] theorem State.enterPhase_errcode (s : State) (p : BitVec 3) (i : Word) : (s.enterPhase p i).errcode = s.errcode := rfl
@[simp] theorem State.enterPhase_fault (s : State) (p : BitVec 3) (i : Word) : (s.enterPhase p i).fault = s.fault := rfl
@[simp] theorem State.enterPhase_fcode (s : State) (p : BitVec 3) (i : Word) : (s.enterPhase p i).fcode = s.fcode := rfl
@[simp] theorem State.enterPhase_cfg (s : State) (p : BitVec 3) (i : Word) : (s.enterPhase p i).cfg = s.cfg := rfl
@[simp] theorem State.enterPhase_draws (s : State) (p : BitVec 3) (i : Word) : (s.enterPhase p i).draws = s.draws := rfl
@[simp] theorem State.enterPhase_schedule (s : State) (p : BitVec 3) (i : Word) : (s.enterPhase p i).schedule = s.schedule := rfl
@[simp] theorem State.enterPhase_returned (s : State) (p : BitVec 3) (i : Word) : (s.enterPhase p i).returned = s.returned := rfl

/-! ## setIdx -/

@[simp] theorem State.setIdx_buf0 (s : State) (i : Word) : (s.setIdx i).buf0 = s.buf0 := rfl
@[simp] theorem State.setIdx_buf1 (s : State) (i : Word) : (s.setIdx i).buf1 = s.buf1 := rfl
@[simp] theorem State.setIdx_cnt (s : State) (i : Word) : (s.setIdx i).cnt = s.cnt := rfl
@[simp] theorem State.setIdx_len (s : State) (i : Word) : (s.setIdx i).len = s.len := rfl
@[simp] theorem State.setIdx_round (s : State) (i : Word) : (s.setIdx i).round = s.round := rfl
@[simp] theorem State.setIdx_phase (s : State) (i : Word) : (s.setIdx i).phase = s.phase := rfl
@[simp] theorem State.setIdx_idx (s : State) (i : Word) : (s.setIdx i).idx = i := rfl
@[simp] theorem State.setIdx_srcsel (s : State) (i : Word) : (s.setIdx i).srcsel = s.srcsel := rfl
@[simp] theorem State.setIdx_single (s : State) (i : Word) : (s.setIdx i).single = s.single := rfl
@[simp] theorem State.setIdx_busy (s : State) (i : Word) : (s.setIdx i).busy = s.busy := rfl
@[simp] theorem State.setIdx_done (s : State) (i : Word) : (s.setIdx i).done = s.done := rfl
@[simp] theorem State.setIdx_err (s : State) (i : Word) : (s.setIdx i).err = s.err := rfl
@[simp] theorem State.setIdx_errcode (s : State) (i : Word) : (s.setIdx i).errcode = s.errcode := rfl
@[simp] theorem State.setIdx_fault (s : State) (i : Word) : (s.setIdx i).fault = s.fault := rfl
@[simp] theorem State.setIdx_fcode (s : State) (i : Word) : (s.setIdx i).fcode = s.fcode := rfl
@[simp] theorem State.setIdx_cfg (s : State) (i : Word) : (s.setIdx i).cfg = s.cfg := rfl
@[simp] theorem State.setIdx_draws (s : State) (i : Word) : (s.setIdx i).draws = s.draws := rfl
@[simp] theorem State.setIdx_schedule (s : State) (i : Word) : (s.setIdx i).schedule = s.schedule := rfl
@[simp] theorem State.setIdx_returned (s : State) (i : Word) : (s.setIdx i).returned = s.returned := rfl

/-! ## setSchedule -/

@[simp] theorem State.setSchedule_buf0 (s : State) (es : List Event) : (s.setSchedule es).buf0 = s.buf0 := rfl
@[simp] theorem State.setSchedule_buf1 (s : State) (es : List Event) : (s.setSchedule es).buf1 = s.buf1 := rfl
@[simp] theorem State.setSchedule_cnt (s : State) (es : List Event) : (s.setSchedule es).cnt = s.cnt := rfl
@[simp] theorem State.setSchedule_len (s : State) (es : List Event) : (s.setSchedule es).len = s.len := rfl
@[simp] theorem State.setSchedule_round (s : State) (es : List Event) : (s.setSchedule es).round = s.round := rfl
@[simp] theorem State.setSchedule_phase (s : State) (es : List Event) : (s.setSchedule es).phase = s.phase := rfl
@[simp] theorem State.setSchedule_idx (s : State) (es : List Event) : (s.setSchedule es).idx = s.idx := rfl
@[simp] theorem State.setSchedule_srcsel (s : State) (es : List Event) : (s.setSchedule es).srcsel = s.srcsel := rfl
@[simp] theorem State.setSchedule_single (s : State) (es : List Event) : (s.setSchedule es).single = s.single := rfl
@[simp] theorem State.setSchedule_busy (s : State) (es : List Event) : (s.setSchedule es).busy = s.busy := rfl
@[simp] theorem State.setSchedule_done (s : State) (es : List Event) : (s.setSchedule es).done = s.done := rfl
@[simp] theorem State.setSchedule_err (s : State) (es : List Event) : (s.setSchedule es).err = s.err := rfl
@[simp] theorem State.setSchedule_errcode (s : State) (es : List Event) : (s.setSchedule es).errcode = s.errcode := rfl
@[simp] theorem State.setSchedule_fault (s : State) (es : List Event) : (s.setSchedule es).fault = s.fault := rfl
@[simp] theorem State.setSchedule_fcode (s : State) (es : List Event) : (s.setSchedule es).fcode = s.fcode := rfl
@[simp] theorem State.setSchedule_cfg (s : State) (es : List Event) : (s.setSchedule es).cfg = s.cfg := rfl
@[simp] theorem State.setSchedule_draws (s : State) (es : List Event) : (s.setSchedule es).draws = s.draws := rfl
@[simp] theorem State.setSchedule_schedule (s : State) (es : List Event) : (s.setSchedule es).schedule = es := rfl
@[simp] theorem State.setSchedule_returned (s : State) (es : List Event) : (s.setSchedule es).returned = s.returned := rfl

/-! ## raiseErr -/

@[simp] theorem State.raiseErr_buf0 (s : State) (c : BitVec 4) : (s.raiseErr c).buf0 = s.buf0 := rfl
@[simp] theorem State.raiseErr_buf1 (s : State) (c : BitVec 4) : (s.raiseErr c).buf1 = s.buf1 := rfl
@[simp] theorem State.raiseErr_cnt (s : State) (c : BitVec 4) : (s.raiseErr c).cnt = s.cnt := rfl
@[simp] theorem State.raiseErr_len (s : State) (c : BitVec 4) : (s.raiseErr c).len = s.len := rfl
@[simp] theorem State.raiseErr_round (s : State) (c : BitVec 4) : (s.raiseErr c).round = s.round := rfl
@[simp] theorem State.raiseErr_phase (s : State) (c : BitVec 4) : (s.raiseErr c).phase = s.phase := rfl
@[simp] theorem State.raiseErr_idx (s : State) (c : BitVec 4) : (s.raiseErr c).idx = s.idx := rfl
@[simp] theorem State.raiseErr_srcsel (s : State) (c : BitVec 4) : (s.raiseErr c).srcsel = s.srcsel := rfl
@[simp] theorem State.raiseErr_single (s : State) (c : BitVec 4) : (s.raiseErr c).single = s.single := rfl
@[simp] theorem State.raiseErr_busy (s : State) (c : BitVec 4) : (s.raiseErr c).busy = s.busy := rfl
@[simp] theorem State.raiseErr_done (s : State) (c : BitVec 4) : (s.raiseErr c).done = s.done := rfl
@[simp] theorem State.raiseErr_err (s : State) (c : BitVec 4) : (s.raiseErr c).err = true := rfl
@[simp] theorem State.raiseErr_errcode (s : State) (c : BitVec 4) : (s.raiseErr c).errcode = c := rfl
@[simp] theorem State.raiseErr_fault (s : State) (c : BitVec 4) : (s.raiseErr c).fault = s.fault := rfl
@[simp] theorem State.raiseErr_fcode (s : State) (c : BitVec 4) : (s.raiseErr c).fcode = s.fcode := rfl
@[simp] theorem State.raiseErr_cfg (s : State) (c : BitVec 4) : (s.raiseErr c).cfg = s.cfg := rfl
@[simp] theorem State.raiseErr_draws (s : State) (c : BitVec 4) : (s.raiseErr c).draws = s.draws := rfl
@[simp] theorem State.raiseErr_schedule (s : State) (c : BitVec 4) : (s.raiseErr c).schedule = s.schedule := rfl
@[simp] theorem State.raiseErr_returned (s : State) (c : BitVec 4) : (s.raiseErr c).returned = s.returned := rfl

/-! ## clearErr -/

@[simp] theorem State.clearErr_buf0 (s : State) : s.clearErr.buf0 = s.buf0 := rfl
@[simp] theorem State.clearErr_buf1 (s : State) : s.clearErr.buf1 = s.buf1 := rfl
@[simp] theorem State.clearErr_cnt (s : State) : s.clearErr.cnt = s.cnt := rfl
@[simp] theorem State.clearErr_len (s : State) : s.clearErr.len = s.len := rfl
@[simp] theorem State.clearErr_round (s : State) : s.clearErr.round = s.round := rfl
@[simp] theorem State.clearErr_phase (s : State) : s.clearErr.phase = s.phase := rfl
@[simp] theorem State.clearErr_idx (s : State) : s.clearErr.idx = s.idx := rfl
@[simp] theorem State.clearErr_srcsel (s : State) : s.clearErr.srcsel = s.srcsel := rfl
@[simp] theorem State.clearErr_single (s : State) : s.clearErr.single = s.single := rfl
@[simp] theorem State.clearErr_busy (s : State) : s.clearErr.busy = s.busy := rfl
@[simp] theorem State.clearErr_done (s : State) : s.clearErr.done = s.done := rfl
@[simp] theorem State.clearErr_err (s : State) : s.clearErr.err = false := rfl
@[simp] theorem State.clearErr_errcode (s : State) : s.clearErr.errcode = 0 := rfl
@[simp] theorem State.clearErr_fault (s : State) : s.clearErr.fault = s.fault := rfl
@[simp] theorem State.clearErr_fcode (s : State) : s.clearErr.fcode = s.fcode := rfl
@[simp] theorem State.clearErr_cfg (s : State) : s.clearErr.cfg = s.cfg := rfl
@[simp] theorem State.clearErr_draws (s : State) : s.clearErr.draws = s.draws := rfl
@[simp] theorem State.clearErr_schedule (s : State) : s.clearErr.schedule = s.schedule := rfl
@[simp] theorem State.clearErr_returned (s : State) : s.clearErr.returned = s.returned := rfl

/-! ## raiseFault -/

@[simp] theorem State.raiseFault_buf0 (s : State) (c : BitVec 2) : (s.raiseFault c).buf0 = s.buf0 := rfl
@[simp] theorem State.raiseFault_buf1 (s : State) (c : BitVec 2) : (s.raiseFault c).buf1 = s.buf1 := rfl
@[simp] theorem State.raiseFault_cnt (s : State) (c : BitVec 2) : (s.raiseFault c).cnt = s.cnt := rfl
@[simp] theorem State.raiseFault_len (s : State) (c : BitVec 2) : (s.raiseFault c).len = s.len := rfl
@[simp] theorem State.raiseFault_round (s : State) (c : BitVec 2) : (s.raiseFault c).round = s.round := rfl
@[simp] theorem State.raiseFault_phase (s : State) (c : BitVec 2) : (s.raiseFault c).phase = phaseIdle := rfl
@[simp] theorem State.raiseFault_idx (s : State) (c : BitVec 2) : (s.raiseFault c).idx = 0 := rfl
@[simp] theorem State.raiseFault_srcsel (s : State) (c : BitVec 2) : (s.raiseFault c).srcsel = s.srcsel := rfl
@[simp] theorem State.raiseFault_single (s : State) (c : BitVec 2) : (s.raiseFault c).single = s.single := rfl
@[simp] theorem State.raiseFault_busy (s : State) (c : BitVec 2) : (s.raiseFault c).busy = false := rfl
@[simp] theorem State.raiseFault_done (s : State) (c : BitVec 2) : (s.raiseFault c).done = s.done := rfl
@[simp] theorem State.raiseFault_err (s : State) (c : BitVec 2) : (s.raiseFault c).err = s.err := rfl
@[simp] theorem State.raiseFault_errcode (s : State) (c : BitVec 2) : (s.raiseFault c).errcode = s.errcode := rfl
@[simp] theorem State.raiseFault_fault (s : State) (c : BitVec 2) : (s.raiseFault c).fault = true := rfl
@[simp] theorem State.raiseFault_fcode (s : State) (c : BitVec 2) : (s.raiseFault c).fcode = c := rfl
@[simp] theorem State.raiseFault_cfg (s : State) (c : BitVec 2) : (s.raiseFault c).cfg = s.cfg := rfl
@[simp] theorem State.raiseFault_draws (s : State) (c : BitVec 2) : (s.raiseFault c).draws = s.draws := rfl
@[simp] theorem State.raiseFault_schedule (s : State) (c : BitVec 2) : (s.raiseFault c).schedule = s.schedule := rfl
@[simp] theorem State.raiseFault_returned (s : State) (c : BitVec 2) : (s.raiseFault c).returned = s.returned := rfl

/-! ## flagCompletion -/

@[simp] theorem State.flagCompletion_buf0 (s : State) : s.flagCompletion.buf0 = s.buf0 := rfl
@[simp] theorem State.flagCompletion_buf1 (s : State) : s.flagCompletion.buf1 = s.buf1 := rfl
@[simp] theorem State.flagCompletion_cnt (s : State) : s.flagCompletion.cnt = s.cnt := rfl
@[simp] theorem State.flagCompletion_len (s : State) : s.flagCompletion.len = s.len := rfl
@[simp] theorem State.flagCompletion_round (s : State) : s.flagCompletion.round = s.round := rfl
@[simp] theorem State.flagCompletion_phase (s : State) : s.flagCompletion.phase = s.phase := rfl
@[simp] theorem State.flagCompletion_idx (s : State) : s.flagCompletion.idx = s.idx := rfl
@[simp] theorem State.flagCompletion_srcsel (s : State) : s.flagCompletion.srcsel = s.srcsel := rfl
@[simp] theorem State.flagCompletion_single (s : State) : s.flagCompletion.single = s.single := rfl
@[simp] theorem State.flagCompletion_busy (s : State) : s.flagCompletion.busy = false := rfl
@[simp] theorem State.flagCompletion_done (s : State) : s.flagCompletion.done = true := rfl
@[simp] theorem State.flagCompletion_err (s : State) : s.flagCompletion.err = s.err := rfl
@[simp] theorem State.flagCompletion_errcode (s : State) : s.flagCompletion.errcode = s.errcode := rfl
@[simp] theorem State.flagCompletion_fault (s : State) : s.flagCompletion.fault = s.fault := rfl
@[simp] theorem State.flagCompletion_fcode (s : State) : s.flagCompletion.fcode = s.fcode := rfl
@[simp] theorem State.flagCompletion_cfg (s : State) : s.flagCompletion.cfg = s.cfg := rfl
@[simp] theorem State.flagCompletion_draws (s : State) : s.flagCompletion.draws = s.draws := rfl
@[simp] theorem State.flagCompletion_schedule (s : State) : s.flagCompletion.schedule = s.schedule := rfl
@[simp] theorem State.flagCompletion_returned (s : State) : s.flagCompletion.returned = s.returned := rfl

/-! ## flagAcceptance -/

@[simp] theorem State.flagAcceptance_buf0 (s : State) : s.flagAcceptance.buf0 = s.buf0 := rfl
@[simp] theorem State.flagAcceptance_buf1 (s : State) : s.flagAcceptance.buf1 = s.buf1 := rfl
@[simp] theorem State.flagAcceptance_cnt (s : State) : s.flagAcceptance.cnt = s.cnt := rfl
@[simp] theorem State.flagAcceptance_len (s : State) : s.flagAcceptance.len = s.len := rfl
@[simp] theorem State.flagAcceptance_round (s : State) : s.flagAcceptance.round = s.round := rfl
@[simp] theorem State.flagAcceptance_phase (s : State) : s.flagAcceptance.phase = s.phase := rfl
@[simp] theorem State.flagAcceptance_idx (s : State) : s.flagAcceptance.idx = s.idx := rfl
@[simp] theorem State.flagAcceptance_srcsel (s : State) : s.flagAcceptance.srcsel = s.srcsel := rfl
@[simp] theorem State.flagAcceptance_single (s : State) : s.flagAcceptance.single = s.single := rfl
@[simp] theorem State.flagAcceptance_busy (s : State) : s.flagAcceptance.busy = true := rfl
@[simp] theorem State.flagAcceptance_done (s : State) : s.flagAcceptance.done = false := rfl
@[simp] theorem State.flagAcceptance_err (s : State) : s.flagAcceptance.err = s.err := rfl
@[simp] theorem State.flagAcceptance_errcode (s : State) : s.flagAcceptance.errcode = s.errcode := rfl
@[simp] theorem State.flagAcceptance_fault (s : State) : s.flagAcceptance.fault = s.fault := rfl
@[simp] theorem State.flagAcceptance_fcode (s : State) : s.flagAcceptance.fcode = s.fcode := rfl
@[simp] theorem State.flagAcceptance_cfg (s : State) : s.flagAcceptance.cfg = s.cfg := rfl
@[simp] theorem State.flagAcceptance_draws (s : State) : s.flagAcceptance.draws = s.draws := rfl
@[simp] theorem State.flagAcceptance_schedule (s : State) : s.flagAcceptance.schedule = s.schedule := rfl
@[simp] theorem State.flagAcceptance_returned (s : State) : s.flagAcceptance.returned = s.returned := rfl

/-! ## doReset -/

@[simp] theorem State.doReset_buf0 (s : State) : s.doReset.buf0 = [] := rfl
@[simp] theorem State.doReset_buf1 (s : State) : s.doReset.buf1 = [] := rfl
@[simp] theorem State.doReset_cnt (s : State) : s.doReset.cnt = Vector.replicate 256 0 := rfl
@[simp] theorem State.doReset_len (s : State) : s.doReset.len = 0 := rfl
@[simp] theorem State.doReset_round (s : State) : s.doReset.round = 0 := rfl
@[simp] theorem State.doReset_phase (s : State) : s.doReset.phase = 0 := rfl
@[simp] theorem State.doReset_idx (s : State) : s.doReset.idx = 0 := rfl
@[simp] theorem State.doReset_srcsel (s : State) : s.doReset.srcsel = false := rfl
@[simp] theorem State.doReset_single (s : State) : s.doReset.single = false := rfl
@[simp] theorem State.doReset_busy (s : State) : s.doReset.busy = false := rfl
@[simp] theorem State.doReset_done (s : State) : s.doReset.done = false := rfl
@[simp] theorem State.doReset_err (s : State) : s.doReset.err = false := rfl
@[simp] theorem State.doReset_errcode (s : State) : s.doReset.errcode = 0 := rfl
@[simp] theorem State.doReset_fault (s : State) : s.doReset.fault = false := rfl
@[simp] theorem State.doReset_fcode (s : State) : s.doReset.fcode = 0 := rfl
@[simp] theorem State.doReset_cfg (s : State) : s.doReset.cfg = s.cfg := rfl
@[simp] theorem State.doReset_draws (s : State) : s.doReset.draws = s.draws + 1 := rfl
@[simp] theorem State.doReset_schedule (s : State) : s.doReset.schedule = s.schedule := rfl
@[simp] theorem State.doReset_returned (s : State) : s.doReset.returned = s.returned := rfl

end Sys2Proof.Machine
end

