-- ==== Sys2Proof/Laws/Memory.lean ====
section
/-! SUPPORT. Key memories and counters: read after write, the canonical form, and which updates leave every word and
every counter as it was (20_memory.md R38, 10_state.md R13). -/

namespace Sys2Proof.Machine

/-! ## One memory -/

/-- A read after a write gives the value written there, and what was there elsewhere. -/
theorem Memory.find_put (m : Memory) (i j : Nat) (v : Word) :
    Memory.find (Memory.put m i v) j = if j = i then some v else Memory.find m j := by
  induction m with
  | nil => simp [Memory.put, Memory.find, eq_comm]
  | cons e m ih =>
    obtain ⟨a, w⟩ := e
    simp only [Memory.put]
    by_cases hj : j = i
    · subst hj
      split
      · simp [Memory.find]
      · split
        · simp [Memory.find]
        · simp [Memory.find, ih]; omega
    · split
      · simp [Memory.find, Ne.symm hj]
      · split
        · subst i; simp [Memory.find, Ne.symm hj]
        · simp [Memory.find, ih, hj]

/-- What a write lists: the written cell and cells that were listed. -/
theorem Memory.mem_put {m : Memory} {i : Nat} {v : Word} {e : Nat × Word} (h : e ∈ Memory.put m i v) :
    e = (i, v) ∨ e ∈ m := by
  induction m with
  | nil => simpa [Memory.put] using h
  | cons c m ih =>
    simp only [Memory.put] at h
    split at h
    · simpa using h
    · split at h
      · rcases List.mem_cons.mp h with h | h <;> simp [h]
      · rcases List.mem_cons.mp h with h | h
        · simp [h]
        · rcases ih h with h | h <;> simp [h]

/-- A write keeps the canonical form. -/
theorem Memory.put_wf {m : Memory} (h : m.wf) (i : Nat) (v : Word) : (Memory.put m i v).wf := by
  induction m with
  | nil => simp [Memory.put, Memory.wf]
  | cons c m ih =>
    obtain ⟨a, w⟩ := c
    have hc := List.pairwise_cons.mp h
    simp only [Memory.put]
    split
    · refine List.pairwise_cons.mpr ⟨fun e he => ?_, h⟩
      rcases List.mem_cons.mp he with rfl | he
      · assumption
      · have := hc.1 e he; simp only at this ⊢; omega
    · split
      · subst i; exact List.pairwise_cons.mpr ⟨hc.1, hc.2⟩
      · refine List.pairwise_cons.mpr ⟨fun e he => ?_, ih hc.2⟩
        rcases Memory.mem_put he with rfl | he
        · simp only; omega
        · exact hc.1 e he

/-! ## The two key memories of a state -/

@[simp] theorem State.buf_setBuf (s : State) (b b' : Bool) (m : Memory) :
    (s.setBuf b m).buf b' = if b' = b then m else s.buf b' := by
  cases b <;> cases b' <;> rfl

@[simp] theorem State.buf_writeWord (s : State) (b b' : Bool) (i : Nat) (v : Word) :
    (s.writeWord b i v).buf b' = if b' = b then Memory.put (s.buf b) i v else s.buf b' :=
  State.buf_setBuf s b b' _

/-- What a word reads as depends on its memory and on the contents drawn at the last reset. -/
theorem State.wordAt_congr {s t : State} {b : Bool} (hb : t.buf b = s.buf b) (hd : t.draws = s.draws) (i : Nat) :
    t.wordAt b i = s.wordAt b i := by
  simp [State.wordAt, State.unwritten, hb, hd]

/-- A write to a word stores the value there and changes no other word of either memory (R38). -/
theorem State.wordAt_writeWord (s : State) (b b' : Bool) (i j : Nat) (v : Word) :
    (s.writeWord b i v).wordAt b' j = if b' = b ∧ j = i then v else s.wordAt b' j := by
  by_cases hb : b' = b
  · subst hb; by_cases hj : j = i <;> simp [State.wordAt, State.unwritten, Memory.find_put, hj]
  · simp [State.wordAt, State.unwritten, hb]

/-- A word nothing has written since the last reset reads as the value drawn at it (R28, U1). -/
theorem State.wordAt_of_find_none {s : State} {b : Bool} {i : Nat} (h : Memory.find (s.buf b) i = none) :
    s.wordAt b i = Config.resetWord s.draws b i := by
  simp [State.wordAt, State.unwritten, h]

/-! ## Counters -/

/-- Reading a counter after writing one. -/
@[simp] theorem State.counter_setCounter (s : State) (d e : Digit) (v : Word) :
    (s.setCounter d v).counter e = if e = d then v else s.counter e := by
  unfold State.counter State.setCounter
  by_cases h : e = d
  · simp [h]
  · have : d.toNat ≠ e.toNat := fun hh => h (BitVec.eq_of_toNat_eq hh.symm)
    simp [h, this]

/-- A counter reads what its file holds. -/
theorem State.counter_congr {s t : State} (h : t.cnt = s.cnt) (d : Digit) : t.counter d = s.counter d := by
  simp [State.counter, h]

/-- Two states whose counters all read the same have the same counter file. -/
theorem State.cnt_ext {s t : State} (h : ∀ d, t.counter d = s.counter d) : t.cnt = s.cnt := by
  apply Vector.ext
  intro i hi
  have := h (BitVec.ofNat 8 i)
  simpa [State.counter, Nat.mod_eq_of_lt hi] using this

/-! ## Keys and digits -/

/-- The keys of the source sequence depend on the source memory, SRCSEL and the drawn contents only. -/
theorem State.key_congr {s t : State} (hb : t.buf s.srcsel = s.buf s.srcsel) (hs : t.srcsel = s.srcsel)
    (hd : t.draws = s.draws) (i : Nat) : t.key i = s.key i := by
  simp only [State.key, hs]; exact State.wordAt_congr hb hd i

/-- So do their digits, with ROUND. -/
theorem State.dig_congr {s t : State} (hb : t.buf s.srcsel = s.buf s.srcsel) (hs : t.srcsel = s.srcsel)
    (hd : t.draws = s.draws) (hr : t.round = s.round) (i : Nat) : t.dig i = s.dig i := by
  simp only [State.dig, hr, State.key_congr hb hs hd i]

end Sys2Proof.Machine
end

