-- ==== Sys2Proof/Laws/Counts.lean ====
section
/-! SUPPORT. The digit counts of a pass: how each grows by one key or one digit, and how they relate (41_pass_phases.md
R78, R80, R84). -/

namespace Sys2Proof.Machine

/-! ## Growth by one key -/

@[simp] theorem State.countBelow_zero (s : State) (d : Digit) : s.countBelow 0 d = 0 := rfl

/-- One more key counts at its own digit. -/
theorem State.countBelow_succ (s : State) (n : Nat) (d : Digit) :
    s.countBelow (n + 1) d = s.countBelow n d + if s.dig n = d then 1 else 0 := by
  simp [State.countBelow, List.range_succ, List.countP_append, List.countP_cons]

/-- A count of the first `n` keys is at most `n`. -/
theorem State.countBelow_le (s : State) (n : Nat) (d : Digit) : s.countBelow n d ≤ n := by
  simpa [State.countBelow] using List.countP_le_length (p := fun j => s.dig j == d) (l := List.range n)

/-- Counting further keys never lowers a count. -/
theorem State.countBelow_mono (s : State) {m n : Nat} (h : m ≤ n) (d : Digit) :
    s.countBelow m d ≤ s.countBelow n d := by
  induction n, h using Nat.le_induction with
  | base => exact Nat.le_refl _
  | succ n _ ih => rw [State.countBelow_succ]; omega

/-- A key inside the sequence makes its digit's count grow past it. -/
theorem State.countBelow_lt (s : State) {i n : Nat} (h : i < n) : s.countBelow i (s.dig i) < s.countBelow n (s.dig i) := by
  have := s.countBelow_mono (Nat.succ_le_of_lt h) (s.dig i)
  rw [State.countBelow_succ] at this
  simp only [if_true] at this
  omega

/-! ## Counts over a predicate, split by digit -/

/-- Counting by `p ∨ q` for exclusive `p`, `q` is the sum of the two counts. -/
theorem countP_split {α : Type} (p q r : α → Bool) (l : List α) (h : ∀ a ∈ l, (r a = true ↔ p a = true ∨ q a = true))
    (hx : ∀ a ∈ l, ¬ (p a = true ∧ q a = true)) : l.countP r = l.countP p + l.countP q := by
  induction l with
  | nil => rfl
  | cons a l ih =>
    have ih := ih (fun b hb => h b (by simp [hb])) (fun b hb => hx b (by simp [hb]))
    have ha := h a (by simp)
    have hxa := hx a (by simp)
    simp only [List.countP_cons, ih]
    cases hp : p a <;> cases hq : q a <;> cases hr : r a <;> simp_all <;> omega

/-- `incl[d] = excl[d] + count[d]` (R80). -/
theorem State.incl_eq (s : State) (d : Digit) : s.incl d = s.excl d + s.histogram d := by
  unfold State.incl State.excl State.histogram State.countBelow
  apply countP_split
  · intro j _
    simp only [decide_eq_true_eq, beq_iff_eq, BitVec.le_def, BitVec.lt_def, ← BitVec.toNat_inj]
    omega
  · intro j _ h
    simp only [decide_eq_true_eq, beq_iff_eq, BitVec.lt_def, ← BitVec.toNat_inj] at h
    omega

/-- The keys with a digit below `d` are those with a digit at most `d − 1`. -/
theorem State.excl_eq_incl_pred (s : State) {d e : Digit} (h : d.toNat = e.toNat + 1) : s.excl d = s.incl e := by
  unfold State.excl State.incl
  congr 1
  funext j
  simp only [BitVec.le_def, BitVec.lt_def, decide_eq_decide]
  omega

/-- No digit is below 0. -/
@[simp] theorem State.excl_zero (s : State) : s.excl 0#8 = 0 := by
  simp [State.excl, BitVec.lt_def]

/-- Every digit is at most 255: `CNT[255] = N` after PREFIX (R80). -/
theorem State.incl_last (s : State) : s.incl 255#8 = s.len.toNat := by
  have : ∀ d : Digit, d.toNat ≤ 255 := fun d => by have := d.isLt; omega
  simp [State.incl, BitVec.le_def, this, List.countP_true]

/-- No prefix sum exceeds N (R86). -/
theorem State.incl_le (s : State) (d : Digit) : s.incl d ≤ s.len.toNat := by
  simpa [State.incl] using List.countP_le_length (p := fun j => decide (s.dig j ≤ d)) (l := List.range s.len.toNat)

/-- Different digits have disjoint destination ranges (R80). -/
theorem State.incl_le_excl (s : State) {d e : Digit} (h : d < e) : s.incl d ≤ s.excl e := by
  unfold State.incl State.excl
  apply List.countP_mono_left
  intro j _ hj
  simp only [decide_eq_true_eq, BitVec.le_def, BitVec.lt_def] at *
  omega

/-! ## What the invariant says of a counter, phase by phase -/

theorem State.expectedCounter_count {s : State} (h : s.phase = phaseCount) (d : Digit) :
    s.expectedCounter d = s.countBelow s.idx.toNat d := by
  simp [State.expectedCounter, h]

theorem State.expectedCounter_prefix {s : State} (h : s.phase = phasePrefixSum) (d : Digit) :
    s.expectedCounter d = if d.toNat < s.idx.toNat then s.incl d else s.histogram d := by
  simp [State.expectedCounter, h]

theorem State.expectedCounter_scatter {s : State} (h : s.phase = phaseScatter) (d : Digit) :
    s.expectedCounter d = s.excl d + s.countBelow s.idx.toNat d := by
  simp [State.expectedCounter, h]

theorem State.expectedCounter_clear {s : State} (h : s.phase = phaseClear) (d : Digit) :
    s.expectedCounter d = if d.toNat < s.idx.toNat then 0 else s.excl d := by
  simp [State.expectedCounter, h]

theorem State.expectedCounter_idle {s : State} (h : s.phase = phaseIdle) (d : Digit) : s.expectedCounter d = 0 := by
  simp [State.expectedCounter, h]

@[simp] theorem State.placedFrom_scatter {s : State} (h : s.phase = phaseScatter) : s.placedFrom = s.idx.toNat := by
  simp [State.placedFrom, h]

@[simp] theorem State.placedFrom_clear {s : State} (h : s.phase = phaseClear) : s.placedFrom = 0 := by
  simp [State.placedFrom, h]

/-! ## What the counts depend on -/

/-- Two states with the same digits have the same counts of them. -/
theorem State.countBelow_congr {s t : State} (h : ∀ i, t.dig i = s.dig i) (n : Nat) (d : Digit) :
    t.countBelow n d = s.countBelow n d := by
  simp [State.countBelow, h]

/-- Two states with the same digits and LEN have the same exclusive counts. -/
theorem State.excl_congr {s t : State} (h : ∀ i, t.dig i = s.dig i) (hl : t.len = s.len) (d : Digit) :
    t.excl d = s.excl d := by
  simp [State.excl, h, hl]

/-- Two states with the same digits and LEN have the same inclusive counts. -/
theorem State.incl_congr {s t : State} (h : ∀ i, t.dig i = s.dig i) (hl : t.len = s.len) (d : Digit) :
    t.incl d = s.incl d := by
  simp [State.incl, h, hl]

/-- Two states with the same digits and LEN have the same histogram. -/
theorem State.histogram_congr {s t : State} (h : ∀ i, t.dig i = s.dig i) (hl : t.len = s.len) (d : Digit) :
    t.histogram d = s.histogram d := by
  simp [State.histogram, State.countBelow_congr h, hl]

/-- Two states with the same digits and LEN have the same ranks. -/
theorem State.rank_congr {s t : State} (h : ∀ i, t.dig i = s.dig i) (hl : t.len = s.len) (i : Nat) :
    t.rank i = s.rank i := by
  simp [State.rank, h, State.countBelow_congr h, State.excl_congr h hl]

end Sys2Proof.Machine
end

