-- ==== Sys2Proof/Laws/Sequencer.lean ====
section
/-! SUPPORT. What each control transfer and each instruction can do, said once: if it goes on, then one of the cases
holds (40_commands.md R60, R62; 41_pass_phases.md; 42_round_driver.md R98 to R100). -/

namespace Sys2Proof.Machine

/-! ## Control transfers -/

/-- PassEntry: one of its two assertions fails, or COUNT is entered (R98). -/
theorem passEntry_cases (s : State) :
    (s.cfg.assertEn = true ∧ 3 < s.round.toNat ∧ passEntry s = s.raiseFault FaultCode.roundRange) ∨
    (s.cfg.assertEn = true ∧ s.round.toNat ≤ 3 ∧ ¬ s.countersZero ∧
      passEntry s = s.raiseFault FaultCode.cntNonzero) ∨
    ((s.cfg.assertEn = true → s.round.toNat ≤ 3 ∧ s.countersZero) ∧ passEntry s = s.enterPhase phaseCount 0) := by
  by_cases he : s.cfg.assertEn = true
  · by_cases hr : 3 < s.round.toNat
    · exact .inl ⟨he, hr, if_pos ⟨he, hr⟩⟩
    · by_cases hz : s.countersZero
      · exact .inr (.inr ⟨fun _ => ⟨by omega, hz⟩, by
          rw [passEntry, if_neg (fun h => hr h.2), if_neg (fun h => h.2 hz)]⟩)
      · exact .inr (.inl ⟨he, by omega, hz, by rw [passEntry, if_neg (fun h => hr h.2), if_pos ⟨he, hz⟩]⟩)
  · exact .inr (.inr ⟨fun h => absurd h he, by
      rw [passEntry, if_neg (fun h => he h.1), if_neg (fun h => he h.1)]⟩)

/-- PassEntry with its assertions holding, or not built in, enters COUNT (R98). -/
theorem passEntry_ok {s : State} (h : s.cfg.assertEn = true → s.round.toNat ≤ 3 ∧ s.countersZero) :
    passEntry s = s.enterPhase phaseCount 0 := by
  rcases passEntry_cases s with ⟨he, hr, -⟩ | ⟨he, -, hz, -⟩ | ⟨-, h'⟩
  · exact absurd (h he).1 (by omega)
  · exact absurd (h he).2 hz
  · exact h'

/-- PassEntry writes only PHASE, IDX, BUSY, FAULT and FCODE (R98, R118). -/
theorem passEntry_frame (s : State) :
    ∃ p i b f c, passEntry s = { s with phase := p, idx := i, busy := b, fault := f, fcode := c } := by
  rcases passEntry_cases s with ⟨-, -, h⟩ | ⟨-, -, -, h⟩ | ⟨-, h⟩ <;> rw [h] <;> exact ⟨_, _, _, _, _, rfl⟩

/-- PassEnd: completion, or the next pass entry (R99). -/
theorem passEnd_cases (s : State) :
    ((s.single = true ∨ s.round = 3) ∧ passEnd s = complete (passAdvance s)) ∨
    (s.single = false ∧ s.round ≠ 3 ∧ passEnd s = passEntry (passAdvance s)) := by
  have h4 : (passAdvance s).round = 4 ↔ s.round = 3 := by
    simp only [passAdvance]; constructor
    · intro h; have := congrArg (· - 1#3) h; simpa using this
    · intro h; rw [h]; rfl
  unfold passEnd
  by_cases h : s.single = true ∨ s.round = 3
  · exact .inl ⟨h, if_pos (h.imp id h4.mpr)⟩
  · have h' := not_or.mp h
    exact .inr ⟨by simpa using h'.1, h'.2, if_neg (fun hc => h (hc.imp id h4.mp))⟩

/-- Accept writes only the sequencer registers and flags (R62, R118). -/
theorem accept_frame (single : Bool) (r : BitVec 3) (src : Bool) (s : State) :
    ∃ p i b f c, accept single r src s =
      { s with single := single, round := r, srcsel := src, done := false, phase := p, idx := i, busy := b,
               fault := f, fcode := c } := by
  obtain ⟨p, i, b, f, c, h⟩ := passEntry_frame ({ s with single := single, round := r, srcsel := src }.flagAcceptance)
  exact ⟨p, i, b, f, c, h⟩

/-- Accept with the pass-entry assertions holding (R62). -/
theorem accept_ok {single : Bool} {r : BitVec 3} {src : Bool} {s : State} (hr : r.toNat ≤ 3)
    (h : s.cfg.assertEn = true → s.countersZero) :
    accept single r src s = { s with single := single, round := r, srcsel := src, done := false, busy := true,
                                     phase := phaseCount, idx := 0 } := by
  have := passEntry_ok (s := { s with single := single, round := r, srcsel := src }.flagAcceptance)
    (fun he => ⟨hr, h he⟩)
  rw [accept, this]; rfl

/-- A command's issue: refused while busy, refused while faulted, or run (R32, R60). -/
theorem issueGuard_cases (run : State → State) (s : State) :
    (s.busy = true ∧ issueGuard run s = s.raiseErr ErrCode.busyAccess) ∨
    (s.busy = false ∧ s.fault = true ∧ issueGuard run s = s.raiseErr ErrCode.faulted) ∨
    (s.busy = false ∧ s.fault = false ∧ issueGuard run s = run s) := by
  unfold issueGuard
  cases s.busy <;> cases s.fault <;> simp

/-! ## Micro-operations -/

/-- A micro-operation goes past its guard exactly in the ranges of R101. -/
theorem engineGuard_none {lo hi : Nat} {s : State} :
    engineGuard lo hi s = none ↔ s.round.toNat ≤ 4 ∧ lo ≤ s.idx.toNat ∧ s.idx.toNat ≤ hi := by
  unfold engineGuard
  split
  · simp; omega
  · split
    · simp; omega
    · simp; omega

/-- A key is loaded exactly where DIGIT and MemRead have a meaning (R40, R75). -/
theorem loadKey_ok {s : State} {i : Nat} {x : Word} :
    s.loadKey i = .ok x ↔ s.round.toNat ≤ 3 ∧ i < s.cfg.nmax.toNat ∧ x = s.key i := by
  unfold State.loadKey
  split
  · simp; omega
  · split
    · simp; omega
    · simp only [Except.ok.injEq]
      exact ⟨fun h => ⟨by omega, by omega, h.symm⟩, fun h => h.2.2.symm⟩

/-- COUNT: a key step or the boundary step (R77, R100). -/
theorem execCount_cases {s t : State} (h : execCount s = .next t) :
    (s.idx.toNat < s.len.toNat ∧ s.round.toNat ≤ 3 ∧ s.idx.toNat < s.cfg.nmax.toNat ∧
      s.counter (s.dig s.idx.toNat) ≠ BitVec.allOnes 32 ∧
      t = (countKey s.idx.toNat s).setIdx (s.idx + 1)) ∨
    (s.idx.toNat = s.len.toNat ∧ s.round.toNat ≤ 4 ∧ t = s.enterPhase phasePrefixSum 1) := by
  unfold execCount at h
  split at h
  · cases h
  · next hg =>
    have hg := engineGuard_none.mp hg
    split at h
    · unfold countStep at h
      split at h
      · cases h
      · next hl =>
        obtain ⟨hr, hn, rfl⟩ := loadKey_ok.mp hl
        split at h
        · cases h
        · next hc => cases h; exact .inl ⟨by assumption, hr, hn, hc, rfl⟩
    · cases h; exact .inr ⟨by omega, hg.1, rfl⟩

/-- COUNT's key step runs where R77 gives it its effect. -/
theorem execCount_key {s : State} (hr : s.round.toNat ≤ 3) (hi : s.idx.toNat < s.len.toNat)
    (hn : s.idx.toNat < s.cfg.nmax.toNat) (hc : s.counter (s.dig s.idx.toNat) ≠ BitVec.allOnes 32) :
    execCount s = .next ((countKey s.idx.toNat s).setIdx (s.idx + 1)) := by
  unfold execCount countStep
  rw [engineGuard_none.mpr ⟨by omega, by omega, by omega⟩, loadKey_ok.mpr ⟨hr, hn, rfl⟩]
  simp only [hi, if_true]
  exact if_neg hc

/-- PREFIX: a counter step or the boundary step (R79, R100). -/
theorem execPrefixSum_cases {s t : State} (h : execPrefixSum s = .next t) :
    (1 ≤ s.idx.toNat ∧ s.idx.toNat ≤ 255 ∧ s.round.toNat ≤ 4 ∧
      (s.counter (BitVec.ofNat 8 s.idx.toNat)).toNat + (s.counter (BitVec.ofNat 8 (s.idx.toNat - 1))).toNat < 2 ^ 32 ∧
      t = (sumCounter s.idx.toNat s).setIdx (s.idx + 1)) ∨
    (s.idx.toNat = 256 ∧ s.round.toNat ≤ 4 ∧ t = s.enterPhase phaseScatter s.len) := by
  unfold execPrefixSum at h
  split at h
  · cases h
  · next hg =>
    have hg := engineGuard_none.mp hg
    split at h
    · unfold prefixStep at h
      split at h
      · cases h
      · cases h; exact .inl ⟨hg.2.1, by assumption, hg.1, by omega, rfl⟩
    · cases h; exact .inr ⟨by omega, hg.1, rfl⟩

/-- PREFIX's counter step runs where R79 gives it its effect. -/
theorem execPrefixSum_counter {s : State} (hr : s.round.toNat ≤ 4) (h1 : 1 ≤ s.idx.toNat) (hi : s.idx.toNat ≤ 255)
    (hc : (s.counter (BitVec.ofNat 8 s.idx.toNat)).toNat +
      (s.counter (BitVec.ofNat 8 (s.idx.toNat - 1))).toNat < 2 ^ 32) :
    execPrefixSum s = .next ((sumCounter s.idx.toNat s).setIdx (s.idx + 1)) := by
  unfold execPrefixSum prefixStep
  rw [engineGuard_none.mpr ⟨hr, h1, by omega⟩]
  simp only [hi, if_true]
  exact if_neg (by omega)

/-- SCATTER: a key step or the boundary step (R81, R100). -/
theorem execScatter_cases {s t : State} (h : execScatter s = .next t) :
    (0 < s.idx.toNat ∧ s.idx.toNat ≤ s.len.toNat ∧ s.round.toNat ≤ 3 ∧ s.idx.toNat ≤ s.cfg.nmax.toNat ∧
      s.counter (s.dig (s.idx.toNat - 1)) ≠ 0 ∧ s.storeIndex (s.idx.toNat - 1) < s.cfg.nmax.toNat ∧
      t = (placeKey (s.idx.toNat - 1) s).setIdx (s.idx - 1)) ∨
    (s.idx.toNat = 0 ∧ s.round.toNat ≤ 4 ∧ t = s.enterPhase phaseClear 0) := by
  unfold execScatter at h
  split at h
  · cases h
  · next hg =>
    have hg := engineGuard_none.mp hg
    split at h
    · unfold scatterStep at h
      split at h
      · cases h
      · next hl =>
        obtain ⟨hr, hn, rfl⟩ := loadKey_ok.mp hl
        split at h
        · cases h
        · next hc =>
          split at h
          · cases h
          · cases h; exact .inl ⟨by assumption, hg.2.2, hr, by omega, hc, by omega, rfl⟩
    · cases h; exact .inr ⟨by omega, hg.1, rfl⟩

/-- SCATTER's key step runs where R81 gives it its effect. -/
theorem execScatter_key {s : State} (hr : s.round.toNat ≤ 3) (h0 : 0 < s.idx.toNat)
    (hi : s.idx.toNat ≤ s.len.toNat) (hn : s.idx.toNat ≤ s.cfg.nmax.toNat)
    (hc : s.counter (s.dig (s.idx.toNat - 1)) ≠ 0) (hj : s.storeIndex (s.idx.toNat - 1) < s.cfg.nmax.toNat) :
    execScatter s = .next ((placeKey (s.idx.toNat - 1) s).setIdx (s.idx - 1)) := by
  unfold execScatter scatterStep
  rw [engineGuard_none.mpr ⟨by omega, by omega, hi⟩, loadKey_ok.mpr ⟨hr, by omega, rfl⟩]
  simp only [h0, if_true]
  exact (if_neg hc).trans (if_neg (by omega))

/-- CLEAR: a counter step or PassEnd (R82, R99, R100). -/
theorem execClear_cases {s t : State} (h : execClear s = .next t) :
    (s.idx.toNat ≤ 255 ∧ s.round.toNat ≤ 4 ∧ t = (zeroCounter s.idx.toNat s).setIdx (s.idx + 1)) ∨
    (s.idx.toNat = 256 ∧ s.round.toNat ≤ 4 ∧ t = passEnd s) := by
  unfold execClear at h
  split at h
  · cases h
  · next hg =>
    have hg := engineGuard_none.mp hg
    split at h
    · cases h; exact .inl ⟨by assumption, hg.1, rfl⟩
    · cases h; exact .inr ⟨by omega, hg.1, rfl⟩

/-- CLEAR's counter step runs where R82 gives it its effect. -/
theorem execClear_counter {s : State} (hr : s.round.toNat ≤ 4) (hi : s.idx.toNat ≤ 255) :
    execClear s = .next ((zeroCounter s.idx.toNat s).setIdx (s.idx + 1)) := by
  unfold execClear
  rw [engineGuard_none.mpr ⟨hr, by omega, by omega⟩]
  exact if_pos hi

/-- CLEAR at IDX = 256 is PassEnd (R99). -/
theorem execClear_end {s : State} (hr : s.round.toNat ≤ 4) (hi : s.idx.toNat = 256) :
    execClear s = .next (passEnd s) := by
  unfold execClear
  rw [engineGuard_none.mpr ⟨hr, by omega, by omega⟩]
  exact if_neg (by omega)

end Sys2Proof.Machine
end

