-- ==== Sys2Proof/Laws/HostPort.lean ====
section
/-! SUPPORT. Host addresses, what a host access can do, and what a step can do, each said once (20_memory.md R31 to
R38, R45; 40_commands.md R60). -/

namespace Sys2Proof.Machine

/-! ## Addresses (R31) -/

theorem extract_space (x : BitVec 2) (y : BitVec 32) : (x ++ y).extractLsb' 32 2 = x := by
  ext j hj; rw [BitVec.getElem_extractLsb', BitVec.getLsbD_append]; simp [hj]

theorem extract_index (x : BitVec 2) (y : BitVec 32) : (x ++ y).extractLsb' 0 32 = y := by
  ext j hj; rw [BitVec.getElem_extractLsb', BitVec.getLsbD_append]; simp [hj]

@[simp] theorem addrSpace_csrAddr (n : Word) : addrSpace (csrAddr n) = 0 :=
  congrArg BitVec.toNat (extract_space 0#2 n)

@[simp] theorem addrIndex_csrAddr (n : Word) : addrIndex (csrAddr n) = n.toNat :=
  congrArg BitVec.toNat (extract_index 0#2 n)

@[simp] theorem addrSpace_bufAddr (b : Bool) (i : Word) : addrSpace (bufAddr b i) = if b then 3 else 2 := by
  cases b
  · exact congrArg BitVec.toNat (extract_space 2#2 i)
  · exact congrArg BitVec.toNat (extract_space 3#2 i)

@[simp] theorem addrIndex_bufAddr (b : Bool) (i : Word) : addrIndex (bufAddr b i) = i.toNat :=
  congrArg BitVec.toNat (extract_index (if b then 3#2 else 2#2) i)

/-- A host address is its SPACE and its INDEX (R31). -/
theorem addr_ext {a c : HostAddr} (hs : addrSpace a = addrSpace c) (hi : addrIndex a = addrIndex c) : a = c := by
  simp only [addrSpace, addrIndex, BitVec.extractLsb'_toNat] at hs hi
  apply BitVec.eq_of_toNat_eq
  simp only [Nat.shiftRight_eq_div_pow] at hs hi
  have := a.isLt; have := c.isLt
  omega

/-! ## What a host access can do -/

/-- A host access writes only through one of these: an error, a status write, LEN, a key-memory word, or an accepted
command (R32). -/
theorem hostWrite_cases (ha : HostAddr) (v : Word) (s : State) :
    (∃ c, 2 ≤ c.toNat ∧ c.toNat ≤ 5 ∧ hostWrite ha v s = s.raiseErr c) ∨
    (ha = csrAddr 1 ∧ hostWrite ha v s = s.statusWrite v) ∨
    (ha = csrAddr 2 ∧ s.busy = false ∧ v.toNat ≤ s.cfg.nmax.toNat ∧ hostWrite ha v s = { s with len := v }) ∨
    (ha = csrAddr 0 ∧ s.busy = false ∧ hostWrite ha v s = issue v s) ∨
    (∃ b i, ha = bufAddr b i ∧ s.busy = false ∧ i.toNat < s.cfg.nmax.toNat ∧
      hostWrite ha v s = s.writeWord b i.toNat v) := by
  unfold hostWrite
  split
  · exact .inl ⟨ErrCode.badAddr, by decide, by decide, rfl⟩
  next hb =>
  split
  · exact .inl ⟨ErrCode.roWrite, by decide, by decide, rfl⟩
  next h3 =>
  split
  · next h => exact .inr (.inl ⟨addr_ext (by simp [h.1]) (by simp [h.2]), rfl⟩)
  next h1 =>
  split
  · exact .inl ⟨ErrCode.busyAccess, by decide, by decide, rfl⟩
  next hy =>
  have hy : s.busy = false := by simpa using hy
  split
  · next h =>
    unfold lenWrite
    split
    · exact .inl ⟨ErrCode.badLen, by decide, by decide, rfl⟩
    · next hv =>
      exact .inr (.inr (.inl ⟨addr_ext (by simp [h.1]) (by simp [h.2]), hy, by omega, rfl⟩))
  next h2 =>
  split
  · next h => exact .inr (.inr (.inr (.inl ⟨addr_ext (by simp [h.1]) (by simp [h.2]), hy, rfl⟩)))
  next h0 =>
  have hsp : addrSpace ha < 4 := by simp only [addrSpace]; have := (ha.extractLsb' 32 2).isLt; omega
  have hix : addrIndex ha < 2 ^ 32 := by simp only [addrIndex]; exact (ha.extractLsb' 0 32).isLt
  have hmod : addrIndex ha % 4294967296 = addrIndex ha := Nat.mod_eq_of_lt hix
  have hge : addrSpace ha = 2 ∨ addrSpace ha = 3 := by
    simp only [State.badAddress] at hb; omega
  refine .inr (.inr (.inr (.inr ⟨spaceBuf (addrSpace ha), BitVec.ofNat 32 (addrIndex ha), ?_, hy, ?_, ?_⟩)))
  · rcases hge with h | h <;> exact addr_ext (by simp [h, spaceBuf]) (by simp [hmod])
  · simp only [State.badAddress] at hb; simp only [BitVec.toNat_ofNat]; omega
  · simp [hmod]

/-- Only SORT and well-formed PASS are decoded from a command word (R55). -/
theorem decodeCommand_some {w : Word} {i : Instr} (h : decodeCommand w = some i) :
    i = .sort ∨ ∃ r src, i = .pass r src ∧ r.toNat ≤ 3 := by
  unfold decodeCommand at h
  split at h
  · cases h; exact .inl rfl
  · split at h
    · cases h
      refine .inr ⟨_, _, rfl, ?_⟩
      have := (w.extractLsb' 4 2).isLt
      simp only [BitVec.toNat_setWidth]; omega
    · cases h

/-- Issue: a refusal, or the acceptance of the command the word decodes to (R60). -/
theorem issue_cases (w : Word) (s : State) :
    (s.fault = true ∧ issue w s = s.raiseErr ErrCode.faulted) ∨
    (s.fault = false ∧ decodeCommand w = none ∧ issue w s = s.raiseErr ErrCode.illegalCmd) ∨
    (s.fault = false ∧ decodeCommand w = some .sort ∧ issue w s = accept false 0 false s) ∨
    (s.fault = false ∧ ∃ r src, r.toNat ≤ 3 ∧ decodeCommand w = some (.pass r src) ∧
      issue w s = accept true r src s) := by
  unfold issue
  cases hf : s.fault
  · simp only [Bool.false_eq_true, if_false, false_and, false_or, true_and]
    cases hd : decodeCommand w with
    | none => exact .inl ⟨rfl, rfl⟩
    | some i =>
      rcases decodeCommand_some hd with rfl | ⟨r, src, rfl, hr⟩
      · exact .inr (.inl ⟨rfl, rfl⟩)
      · exact .inr (.inr ⟨r, src, hr, rfl, rfl⟩)
  · simp

/-- A legal command word run as an instruction does what its host write to CMD does (R32, R60). -/
theorem exec_command_eq_hostWrite {w : Word} {i : Instr} (h : decodeCommand w = some i) (s : State) :
    exec i s = .next (hostWrite (csrAddr 0) w s) := by
  have hw : hostWrite (csrAddr 0) w s = if s.busy then s.raiseErr ErrCode.busyAccess else issue w s := by
    simp [hostWrite, State.badAddress]
  rw [hw]
  rcases decodeCommand_some h with rfl | ⟨r, src, rfl, -⟩
  · cases hb : s.busy <;> simp [exec, execSort, issueGuard, issue, h, hb]
  · cases hb : s.busy <;> simp [exec, execPass, issueGuard, issue, h, hb]

/-- A host read changes nothing, or raises an error and returns 0 (R33). -/
theorem hostRead_cases (ha : HostAddr) (s : State) :
    (hostRead ha s).2 = s ∨ ∃ c, (c = ErrCode.badAddr ∨ c = ErrCode.busyAccess) ∧ hostRead ha s = (0, s.raiseErr c) := by
  unfold hostRead
  split
  · exact .inr ⟨_, .inl rfl, rfl⟩
  · split
    · exact .inl rfl
    · split
      · exact .inl rfl
      · split
        · exact .inl rfl
        · split
          · exact .inl rfl
          · split
            · exact .inr ⟨_, .inr rfl, rfl⟩
            · exact .inl rfl

/-! ## What a step can do -/

/-- Every step is one of these events (R45): nothing enabled, a micro-operation, a host write, a host read (a WAIT's
last poll among them), or a reset. -/
theorem step_cases {s t : State} (h : step s = .next t) :
    (s.busy = false ∧ s.schedule = [] ∧ t = s) ∨
    (∃ rest, s.busy = false ∧ s.schedule = .engine :: rest ∧ t = s.setSchedule rest) ∨
    (∃ i rest, s.busy = true ∧ decodePhase s.phase = some i ∧
      (s.schedule = rest ∧ (rest = [] ∨ ∃ r, rest = .wait :: r) ∨ s.schedule = .engine :: rest) ∧
      exec i (s.setSchedule rest) = .next t) ∨
    (∃ ha v rest, s.schedule = .write ha v :: rest ∧ t = hostWrite ha v (s.setSchedule rest)) ∨
    (∃ ha rest, (s.schedule = .read ha :: rest ∨ s.busy = false ∧ s.schedule = .wait :: rest ∧ ha = csrAddr 1) ∧
      t = readEvent ha (s.setSchedule rest)) ∨
    (∃ rest, s.schedule = .reset :: rest ∧ t = (s.setSchedule rest).doReset) := by
  have turn : ∀ u : State, (match engineTurn u with | .run i t => exec i t | .settled o => o) = .next t →
      (u.busy = false ∧ t = u) ∨ (∃ i, u.busy = true ∧ decodePhase u.phase = some i ∧ exec i u = .next t) := by
    intro u hu
    unfold engineTurn at hu
    cases hb : u.busy
    · simp only [hb, Bool.false_eq_true, if_false] at hu
      cases hu; exact .inl ⟨rfl, rfl⟩
    · simp only [hb, if_true] at hu
      cases hd : decodePhase u.phase with
      | none => simp [hd] at hu
      | some i => exact .inr ⟨i, rfl, rfl, by simpa [hd] using hu⟩
  unfold step fetch at h
  cases hs : s.schedule with
  | nil =>
    simp only [hs] at h
    rcases turn s h with ⟨hb, rfl⟩ | ⟨i, hb, hd, he⟩
    · exact .inl ⟨hb, rfl, rfl⟩
    · exact .inr (.inr (.inl ⟨i, [], hb, hd, .inl ⟨rfl, .inl rfl⟩, by rw [← hs]; exact he⟩))
  | cons e rest =>
    simp only [hs] at h
    cases e with
    | engine =>
      rcases turn _ h with ⟨hb, rfl⟩ | ⟨i, hb, hd, he⟩
      · exact .inr (.inl ⟨rest, hb, rfl, rfl⟩)
      · exact .inr (.inr (.inl ⟨i, rest, hb, hd, .inr rfl, he⟩))
    | wait =>
      by_cases hb : s.busy = true
      rotate_left
      · have hb : s.busy = false := by simpa using hb
        dsimp only at h
        rw [if_neg (by simp [hb])] at h
        cases h; exact .inr (.inr (.inr (.inr (.inl ⟨csrAddr 1, rest, .inr ⟨hb, rfl, rfl⟩, rfl⟩))))
      · simp only [hb, if_true] at h
        rcases turn s h with ⟨hb', -⟩ | ⟨i, -, hd, he⟩
        · exact absurd hb' (by simp [hb])
        · exact .inr (.inr (.inl ⟨i, .wait :: rest, hb, hd, .inl ⟨rfl, .inr ⟨rest, rfl⟩⟩, by rw [← hs]; exact he⟩))
    | write ha v =>
      refine .inr (.inr (.inr (.inl ⟨ha, v, rest, rfl, ?_⟩)))
      simp only [writeTurn] at h
      split at h
      · next hf =>
        split at hf
        · next hc =>
          subst hc
          split at hf
          · next hd => cases hf; rw [exec_command_eq_hostWrite hd] at h; cases h; rfl
          · cases hf
        · cases hf
      · next hf =>
        split at hf
        · split at hf
          · cases hf
          · cases hf; cases h; rfl
        · cases hf; cases h; rfl
    | read ha =>
      cases h; exact .inr (.inr (.inr (.inr (.inl ⟨ha, rest, .inl rfl, rfl⟩))))
    | reset =>
      cases h; exact .inr (.inr (.inr (.inr (.inr ⟨rest, rfl, rfl⟩))))

end Sys2Proof.Machine
end

