-- ==== Sys2Proof/Laws/PerInstr.lean ====
section
/-! SUPPORT. A statement for every instruction: its encoding fits its row of spec/opcode_table.json, the row's mask and
match for a command (R50, R51), the row's PHASE code for a micro-operation (R56). -/

namespace Sys2Proof.Laws.TableRow

/-- The encoding of `i` has the bits its row of the opcode table fixes, and `i`'s operands in the row's fields. -/
def Statement (i : Instr) : Prop :=
  match i with
  | .sort => encode i = .command 0x00000001#32
  | .pass r src => WellFormed i → ∃ w : Word, encode i = .command w ∧ w &&& 0xFFFFFF8F#32 = 0x00000002#32 ∧
      (w.extractLsb' 4 2).setWidth 3 = r ∧ w.getLsbD 6 = src
  | .count => encode i = .phase 0b001#3
  | .prefixSum => encode i = .phase 0b010#3
  | .scatter => encode i = .phase 0b011#3
  | .clear => encode i = .phase 0b100#3

theorem sort : Statement .sort := rfl

theorem pass (r : BitVec 3) (src : Bool) : Statement (.pass r src) := by
  intro h
  refine ⟨passWord r src, rfl, ?_⟩
  have : ∀ (r : BitVec 3) (src : Bool), r.toNat ≤ 3 →
      passWord r src &&& 0xFFFFFF8F#32 = 0x00000002#32 ∧
      ((passWord r src).extractLsb' 4 2).setWidth 3 = r ∧ (passWord r src).getLsbD 6 = src := by decide
  exact this r src (by simpa [WellFormed, wellFormed] using h)

theorem count : Statement .count := rfl

theorem prefixSum : Statement .prefixSum := rfl

theorem scatter : Statement .scatter := rfl

theorem clear : Statement .clear := rfl

end Sys2Proof.Laws.TableRow
end

