-- ==== Sys2Proof/Tests/Slice0.lean ====
section
/-! SUPPORT. Tests of the model against the spec's own tables and vectors (95_test_vectors.md), and for every
obligation with hypotheses a state and operands that meet them. -/

namespace Sys2Proof.Tests

open Sys2Proof Sys2Proof.Machine

/-! ## Well-formedness -/

theorem test_wellFormed_pass_max : WellFormed (.pass 3 true) := by decide

/-- R50, R64: the round index is 0..3. -/
theorem test_illFormed_pass_refused : ¬ WellFormed (.pass 4 false) ∧ ¬ WellFormed (.pass 7 true) := by decide

/-! ## Decoding: words and codes written from R51, R56 and vector V11 -/

theorem test_decode_sort : decodeTableWord 32 0b00000000000000000000000000000001 = some .sort := by decide

theorem test_decode_pass_2_1 : decodeTableWord 32 0b00000000000000000000000001100010 = some (.pass 2 true) := by decide

theorem test_decode_count : decodeTableWord 8 0b001 = some .count := by decide

theorem test_decode_prefix : decodeTableWord 8 0b010 = some .prefixSum := by decide

theorem test_decode_scatter : decodeTableWord 8 0b011 = some .scatter := by decide

theorem test_decode_clear : decodeTableWord 8 0b100 = some .clear := by decide

/-- The nine legal words of V11. -/
theorem test_decode_legal :
    ([0x1, 0x2, 0x12, 0x22, 0x32, 0x42, 0x52, 0x62, 0x72].map (fun n => decodeCommand (BitVec.ofNat 32 n))) =
      [some .sort, some (.pass 0 false), some (.pass 1 false), some (.pass 2 false), some (.pass 3 false),
       some (.pass 0 true), some (.pass 1 true), some (.pass 2 true), some (.pass 3 true)] := by decide

/-- The illegal words of V11. -/
theorem test_decode_illegal :
    ∀ n ∈ [0x0, 0x3, 0x11, 0x41, 0x82, 0x80000001, 0xF, 0xFFFFFFFF, 0x102],
      decodeCommand (BitVec.ofNat 32 n) = none := by decide

/-- R16: IDLE and the unused codes name no micro-operation. -/
theorem test_decodePhase_none : ∀ p ∈ [0#3, 5#3, 6#3, 7#3], decodePhase p = none := by decide

/-! ## Digits: vector V10 -/

theorem test_digit_12345678 : [0#3, 1#3, 2#3, 3#3].map (digit 0x12345678#32) = [0x78#8, 0x56#8, 0x34#8, 0x12#8] := by
  decide

theorem test_digit_8082A52F : [0#3, 1#3, 2#3, 3#3].map (digit 0x8082A52F#32) = [0x2F#8, 0xA5#8, 0x82#8, 0x80#8] := by
  decide

/-! ## States: the first pass of vector V1's kind, over the keys [5, 3] -/

/-- Idle, NMAX = 16, LEN = 2, BUF0 = [5, 3]. -/
def idle : State := { State.reset with buf0 := [(0, 5), (1, 3)], len := 2 }

/-- The same with one event scheduled. -/
def sched (e : Event) (s : State) : State := { s with schedule := [e] }

/-- Idle with the keys ascending. -/
def ascending : State := { idle with buf0 := [(0, 3), (1, 5)] }

/-- Idle with the empty sequence. -/
def empty : State := { idle with len := 0 }

/-- At pass entry of PASS 0,0. -/
def entry : State := { idle with busy := true, phase := phaseCount, single := true }

/-- At pass entry of the second round of a SORT, the keys in BUF1. -/
def entry1 : State :=
  { idle with buf1 := [(0, 3), (1, 5)], busy := true, phase := phaseCount, round := 1, srcsel := true }

/-- At pass entry of the same command over other keys. -/
def otherKeys : State := { entry with buf0 := [(0, 0xFFFFFFFF), (1, 0)] }

/-- COUNT has counted the key 5. -/
def counted : State := { entry with cnt := (Vector.replicate 256 0).set 5 1, idx := 1 }

/-- The histogram of [5, 3], at the boundary of COUNT. -/
def histogram : State := { entry with cnt := ((Vector.replicate 256 0).set 5 1).set 3 1, idx := 2 }

/-- PREFIX at its first step. -/
def summing : State := { histogram with phase := phasePrefixSum, idx := 1 }

/-- The counters after PREFIX: CNT of 3 is 1, from 5 on 2. -/
def inclusive : Vector Word 256 := Vector.ofFn (fun i => if i.val < 3 then 0 else if i.val < 5 then 1 else 2)

/-- PREFIX at its boundary. -/
def summed : State := { entry with cnt := inclusive, phase := phasePrefixSum, idx := 256 }

/-- SCATTER at its first step. -/
def scattering : State := { summed with phase := phaseScatter, idx := 2 }

/-- The key 3 is placed, the key 5 is not: the counter of 3 has gone to 0. -/
def placing : State :=
  { scattering with
    buf1 := [(0, 3)], idx := 1,
    cnt := Vector.ofFn (fun i => if i.val < 4 then 0 else if i.val < 5 then 1 else 2) }

/-- The counters after SCATTER: the exclusive counts. -/
def exclusive : Vector Word 256 := Vector.ofFn (fun i => if i.val < 4 then 0 else if i.val < 6 then 1 else 2)

/-- SCATTER at its boundary: BUF1 = [3, 5]. -/
def scattered : State := { scattering with buf1 := [(0, 3), (1, 5)], cnt := exclusive, idx := 0 }

/-- CLEAR at its first step. -/
def clearing : State := { scattered with phase := phaseClear, idx := 0 }

/-- CLEAR at its boundary. -/
def cleared : State := { clearing with cnt := Vector.replicate 256 0, idx := 256 }

/-- Faulted, idle. -/
def faulted : State := { idle with fault := true, fcode := 1 }

/-- Idle with a counter that is not zero, which no run reaches. -/
def dirty : State := { idle with cnt := (Vector.replicate 256 0).set 7 1 }

/-- The next state of an outcome, if it has one. -/
def next? (o : Host.Outcome State Fault Refusal) : Option State :=
  match o with
  | .next t => some t
  | _ => none

/-- The fault of an outcome, if it has one. -/
def fault? (o : Host.Outcome State Fault Refusal) : Option Fault :=
  match o with
  | .fault f => some f
  | _ => none

/-! ## One step of each instruction -/

/-- R62, R63: SORT starts COUNT of round 0 from BUF0, STATUS = BUSY and PHASE 1. -/
theorem test_sort_accepted : (next? (execSort idle)).map State.statusWord = some 0x00001001#32 := by decide

/-- R37: SORT while busy is BUSY_ACCESS: ERRCODE 3, ERR, BUSY. -/
theorem test_sort_busy :
    (next? (execSort entry)).map (fun t => (t.err, t.errcode, t.busy, t.phase)) = some (true, 3, true, 1) := by decide

/-- R62, R64: PASS 2,1: ROUND 2, SRCSEL 1, SINGLE 1, PHASE COUNT, BUSY (bits 17, 11, 10, 12, 0). -/
theorem test_pass_accepted : (next? (execPass 2 true idle)).map State.statusWord = some 0x00021C01#32 := by decide

/-- R60, R111: PASS while faulted is FAULTED, ERRCODE 6. -/
theorem test_pass_faulted :
    (next? (execPass 0 false faulted)).map (fun t => (t.errcode, t.busy)) = some (6, false) := by decide

/-- R77: COUNT of the key 5 adds 1 to CNT[5]. -/
theorem test_count_key :
    (next? (execCount entry)).map (fun t => (t.counter 5, t.counter 4, t.idx)) = some (1, 0, 1) := by decide

/-- R100: the boundary of COUNT enters PREFIX at 1. -/
theorem test_count_boundary : (next? (execCount histogram)).map (fun t => (t.phase, t.idx)) = some (2, 1) := by decide

/-- R79: PREFIX at d = 4 adds CNT[3] = 1 into CNT[4]. -/
theorem test_prefix_counter :
    (next? (execPrefixSum { summing with idx := 4 })).map (fun t => (t.counter 3, t.counter 4, t.counter 5, t.idx)) =
      some (1, 1, 1, 5) := by decide

/-- R100: the boundary of PREFIX enters SCATTER at LEN. -/
theorem test_prefix_boundary : (next? (execPrefixSum summed)).map (fun t => (t.phase, t.idx)) = some (3, 2) := by
  decide

/-- R81: SCATTER takes the last key first, decrements before it stores (V9's wrong variants store at 1 or in BUF0). -/
theorem test_scatter_key :
    (next? (execScatter scattering)).map (fun t => (t.buf1, t.buf0, t.counter 3, t.idx)) =
      some ([(0, 3)], [(0, 5), (1, 3)], 0, 1) := by
  decide +kernel

/-- R100: the boundary of SCATTER enters CLEAR at 0. -/
theorem test_scatter_boundary : (next? (execScatter scattered)).map (fun t => (t.phase, t.idx)) = some (4, 0) := by
  decide

/-- R82: CLEAR zeroes the counter at IDX only. -/
theorem test_clear_counter :
    (next? (execClear { clearing with idx := 5 })).map (fun t => (t.counter 5, t.counter 6, t.idx)) = some (0, 2, 6) := by
  decide +kernel

/-- R99 and V3's end of a PASS 0,0: STATUS = 0x00010C02. -/
theorem test_clear_passEnd : (next? (execClear cleared)).map State.statusWord = some 0x00010C02#32 := by decide

/-! ## Host accesses: vector V12 -/

/-- V12 lines 1, 7, 9: CAP reads 0x10, BUF0[16] reads 0 with BAD_ADDR, CMD reads 0. -/
theorem test_reads :
    (hostRead (csrAddr 3) State.reset).1 = 0x10 ∧
    (hostRead (bufAddr false 16) State.reset).1 = 0 ∧
    (hostRead (bufAddr false 16) State.reset).2.statusWord = 0x44 ∧ (hostRead (csrAddr 0) State.reset).1 = 0 := by decide

/-- V12 lines 2, 4, 5, 6: the STATUS words of BAD_LEN, ILLEGAL_CMD, RO_WRITE and BAD_ADDR. -/
theorem test_write_errors :
    (hostWrite (csrAddr 2) 17 State.reset).statusWord = 0x24 ∧
    (hostWrite (csrAddr 0) 0 State.reset).statusWord = 0x14 ∧ (hostWrite (csrAddr 3) 5 State.reset).statusWord = 0x54 ∧
    (hostWrite (1#2 ++ 0#32) 5 State.reset).statusWord = 0x44 := by decide

/-- V12 lines 3, 11, 12, 13: STATUS bit 2 clears the error, LEN = NMAX is legal, BUF1[15] keeps what is written. -/
theorem test_writes :
    (hostWrite (csrAddr 1) 4 { State.reset with err := true, errcode := 2 }).statusWord = 0 ∧
    (hostWrite (csrAddr 2) 16 State.reset).len = 16 ∧
    (hostRead (bufAddr true 15) (hostWrite (bufAddr true 15) 0xAAAAAAAA State.reset)).1 = 0xAAAAAAAA := by decide

/-! ## States that meet the invariant -/

/-- Zero counters, without enumerating them. -/
theorem zeros {s : State} (h : s.cnt = Vector.replicate 256 0) : s.countersZero := by
  intro d
  simp [State.counter, h]

/-- The part of the invariant that is plain evaluation on a concrete state, with R84's clause bounded. -/
def evident (s : State) : Bool :=
  decide (s.busy = true ↔
    s.phase = phaseCount ∨ s.phase = phasePrefixSum ∨ s.phase = phaseScatter ∨ s.phase = phaseClear) &&
  decide (s.busy = true → s.round.toNat ≤ 3 ∧ s.fault = false ∧ s.done = false) &&
  decide (s.phase = phaseIdle → s.idx = 0) && decide (s.phase = phaseCount → s.idx.toNat ≤ s.len.toNat) &&
  decide (s.phase = phasePrefixSum → 1 ≤ s.idx.toNat ∧ s.idx.toNat ≤ 256) &&
  decide (s.phase = phaseScatter → s.idx.toNat ≤ s.len.toNat) && decide (s.phase = phaseClear → s.idx.toNat ≤ 256) &&
  decide (s.busy = true → s.single = false → s.srcsel = decide (s.round.toNat % 2 = 1)) &&
  decide (s.round.toNat ≤ 4) && decide (s.round = 4 → s.phase = phaseIdle) &&
  decide (s.done = true → s.busy = false) && decide (s.fault = true → s.busy = false) && decide s.cfg.wf &&
  decide (s.len.toNat ≤ s.cfg.nmax.toNat) && decide (∀ b, (s.buf b).wf) &&
  decide (∀ b, ∀ e ∈ s.buf b, e.1 < s.cfg.nmax.toNat) && decide (s.busy = false → s.phase = phaseIdle) &&
  decide (s.err = false → s.errcode = 0) && decide (s.errcode.toNat ≤ 6) &&
  decide (s.fault = false ∧ s.fcode = 0) &&
  (!decide (s.phase = phaseScatter ∨ s.phase = phaseClear) ||
    decide (∀ i < s.len.toNat, s.placedFrom ≤ i → s.wordAt s.dst (s.rank i) = s.key i))

theorem inv_of_evident {s : State} (h : evident s = true) (hc : ∀ d, (s.counter d).toNat = s.expectedCounter d) :
    Inv s := by
  simp only [evident, Bool.and_eq_true, decide_eq_true_eq, Bool.or_eq_true, Bool.not_eq_true', decide_eq_false_iff_not]
    at h
  obtain ⟨⟨⟨⟨⟨⟨⟨⟨⟨⟨⟨⟨⟨⟨⟨⟨⟨⟨⟨⟨h1, h2⟩, h3⟩, h4⟩, h5⟩, h6⟩, h7⟩, h8⟩, h9⟩, h10⟩, h11⟩, h12⟩, h13⟩, h14⟩, h15⟩, h16⟩,
    h17⟩, h18⟩, h19⟩, h20⟩, h21⟩ := h
  exact
    { busy_iff := h1, running := h2, idx_count := h4, idx_prefix := h5, idx_scatter := h6, idx_clear := h7,
      alternation := h8, round_le := h9, round_four := h10, done_idle := h11, fault_idle := h12, capacity := h13,
      len_le := h14, buf_wf := h15, buf_lt := h16, phase_idle := h17, err_none := h18, errcode_le := h19,
      no_fault := h20, counters := hc
      idle := fun hp => ⟨h3 hp, fun d => BitVec.eq_of_toNat_eq ((hc d).trans (State.expectedCounter_idle hp d))⟩
      placed := fun hp i hi hl => (h21.resolve_left (fun hn => hn hp)) i hl hi }

/-- An idle state with zero counters. -/
theorem inv_of_idle {s : State} (h : evident s = true) (hp : s.phase = phaseIdle)
    (hz : s.cnt = Vector.replicate 256 0) : Inv s :=
  inv_of_evident h fun d => by rw [zeros hz d, State.expectedCounter_idle hp]; rfl

theorem idle_inv : Inv idle := inv_of_idle (by decide) rfl rfl

theorem ascending_inv : Inv ascending := inv_of_idle (by decide) rfl rfl

theorem empty_inv : Inv empty := inv_of_idle (by decide) rfl rfl

/-- At pass entry with zero counters. -/
theorem inv_of_entry {s : State} (h : evident s = true) (hp : s.phase = phaseCount) (hi : s.idx = 0)
    (hz : s.cnt = Vector.replicate 256 0) : Inv s :=
  inv_of_evident h fun d => by
    rw [zeros hz d, State.expectedCounter_count hp, hi]
    rfl

/-- At the boundary of CLEAR with zero counters. -/
theorem inv_of_cleared {s : State} (h : evident s = true) (hp : s.phase = phaseClear) (hi : s.idx = 256)
    (hz : s.cnt = Vector.replicate 256 0) : Inv s :=
  inv_of_evident h fun d => by
    have hd := d.isLt
    rw [zeros hz d, State.expectedCounter_clear hp, hi, if_pos (by simpa using hd)]
    rfl

theorem entry_inv : Inv entry := inv_of_entry (by decide) rfl rfl rfl

theorem entry1_inv : Inv entry1 := inv_of_entry (by decide) rfl rfl rfl

theorem otherKeys_inv : Inv otherKeys := inv_of_entry (by decide) rfl rfl rfl

theorem placing_inv : Inv placing := inv_of_evident (by decide +kernel) (by decide +kernel)

theorem cleared_inv : Inv cleared := inv_of_cleared (by decide) rfl rfl rfl

/-! ## Witnesses: states and operands that meet an obligation's hypotheses, a clause at a time -/

/-- An outcome that goes on, to a state of which `p` holds. -/
theorem goesOn {o : Host.Outcome State Fault Refusal} (p : State → Bool) (h : (next? o).any p = true) :
    ∃ t, o = .next t ∧ p t = true := by
  cases o with
  | next t => exact ⟨t, rfl, h⟩
  | fault => cases h
  | refused => cases h

/-- The two directions of decode and encode. -/
theorem witness_DecodeAndEncodeAgree :
    WellFormed (.pass 3 true) ∧ decode (.command 0x72#32) = some (.pass 3 true) ∧
      decode (.phase 4#3) = some .clear := by decide

theorem witness_IllegalWordsAreRefused : decodeCommand 0x80000001#32 = none ∧ State.reset.ready := by decide

theorem witness_DigitIsByteOfKey : (3#3).toNat ≤ 3 := by decide

theorem witness_StepRunsDecodedInstruction :
    (sched (wrCsr 0 0x72) idle).schedule = .write (csrAddr 0) 0x72 :: [] ∧ decodeCommand 0x72#32 = some (.pass 3 true) ∧
    scattering.engineNext = true ∧ scattering.busy = true ∧ decodePhase scattering.phase = some .scatter ∧
    (sched .wait scattering).engineNext = true ∧ (sched .engine scattering).engineNext = true ∧
    idle.schedule = [] ∧ idle.busy = false ∧ (sched .engine idle).schedule = .engine :: [] ∧
    (sched .engine idle).busy = false := by decide

theorem witness_HostEventsAreHostAccesses :
    (sched (wrCsr 0 0) idle).schedule = .write (csrAddr 0) 0 :: [] ∧
    (sched (rdBuf true 15) idle).schedule = .read (bufAddr true 15) :: [] ∧
    (sched .wait idle).schedule = .wait :: [] ∧ (sched .wait idle).busy = false := by decide

theorem witness_PlacedWordRunsNext :
    decodeTableWord 32 1 = some .sort ∧ decodeTableWord 8 3 = some .scatter ∧
      decodeTableWord 16 0x4000 = some .clear := by decide

/-- Space 1, CSR index 4, and index NMAX = 16 of both key memories. -/
theorem witness_BadAddressIsRefused :
    (1#2 ++ 0#32).extractLsb' 32 2 = 1#2 ∧
    ((0#2 ++ 4#32).extractLsb' 32 2 = 0#2 ∧ 3 < ((0#2 ++ 4#32).extractLsb' 0 32).toNat) ∧
    ((2#2 ++ 16#32).extractLsb' 32 2 = 2#2 ∧ idle.cfg.nmax.toNat ≤ ((2#2 ++ 16#32).extractLsb' 0 32).toNat) ∧
    ((3#2 ++ 16#32).extractLsb' 32 2 = 3#2 ∧ idle.cfg.nmax.toNat ≤ ((3#2 ++ 16#32).extractLsb' 0 32).toNat) := by
  decide

/-- The boundary values 16 and 17 of LEN with NMAX = 16. -/
theorem witness_LenReadsAndWrites :
    entry.busy = true ∧ idle.busy = false ∧ (16#32).toNat ≤ idle.cfg.nmax.toNat ∧ idle.cfg.nmax.toNat < (17#32).toNat := by decide

theorem witness_BusyAccessIsRefused : entry.busy = true ∧ (15#32).toNat < entry.cfg.nmax.toNat := by decide

theorem witness_IdleKeyMemoryAccess :
    faulted.busy = false ∧ (15#32).toNat < faulted.cfg.nmax.toNat ∧ idle.busy = false := by decide

/-- Busy, faulted, and idle with an illegal word and with a legal one. -/
theorem witness_CmdReadsZeroAndIssues :
    entry.busy = true ∧ (faulted.busy = false ∧ faulted.fault = true) ∧
      (idle.ready ∧ decodeCommand 0x11#32 = none) ∧ decodeCommand 0x32#32 = some (.pass 3 false) := by decide

theorem witness_RejectedCommandChangesOnlyTheError :
    (faulted.busy = false ∧ faulted.fault = true) ∧ (idle.busy = false ∧ idle.fault = false) ∧
      decodeCommand 0#32 = none ∧ entry.busy = true ∧ (∃ r src, Instr.pass 0 false = .pass r src) :=
  ⟨by decide, by decide, by decide, rfl, 0, false, rfl⟩

theorem dirty_nonzero {s : State} (h : s.cnt = dirty.cnt) : ¬ s.countersZero := by
  intro hz
  have h7 := hz 7
  rw [State.counter_congr (s := dirty) h] at h7
  exact absurd h7 (by decide)

/-- Zero counters with the assertions built in; a counter that is not zero. -/
theorem witness_AcceptedCommandStartsCount :
    (idle.ready ∧ (idle.cfg.assertEn = true → idle.countersZero) ∧ WellFormed (.pass 3 true)) ∧
    (dirty.ready ∧ dirty.cfg.assertEn = true ∧ ¬ dirty.countersZero) :=
  ⟨⟨by decide, fun _ => zeros rfl, by decide⟩, by decide, by decide, dirty_nonzero rfl⟩

theorem witness_CountStepCountsOneKey :
    counted.round.toNat ≤ 3 ∧ counted.idx.toNat < counted.len.toNat ∧ counted.idx.toNat < counted.cfg.nmax.toNat ∧
    (counted.counter (digit (counted.wordAt counted.srcsel counted.idx.toNat) counted.round)).toNat < 2 ^ 32 - 1 := by
  decide

/-- PREFIX at both ends of its range. -/
theorem witness_PrefixStepAddsOneCounter :
    (let s := { summing with idx := 1 }
     s.round.toNat ≤ 4 ∧ 1 ≤ s.idx.toNat ∧ s.idx.toNat ≤ 255 ∧
     (State.counter s (BitVec.ofNat 8 s.idx.toNat)).toNat + (State.counter s (BitVec.ofNat 8 (s.idx.toNat - 1))).toNat
       < 2 ^ 32) ∧
    (let s := { summing with idx := 255 }
     s.round.toNat ≤ 4 ∧ 1 ≤ s.idx.toNat ∧ s.idx.toNat ≤ 255 ∧
     (State.counter s (BitVec.ofNat 8 s.idx.toNat)).toNat + (State.counter s (BitVec.ofNat 8 (s.idx.toNat - 1))).toNat
       < 2 ^ 32) := by decide +kernel

theorem witness_ScatterStepPlacesOneKey :
    scattering.round.toNat ≤ 3 ∧ 0 < scattering.idx.toNat ∧ scattering.idx.toNat ≤ scattering.len.toNat ∧
    scattering.idx.toNat ≤ scattering.cfg.nmax.toNat ∧
    0 < (scattering.counter (digit (scattering.wordAt scattering.srcsel (scattering.idx.toNat - 1)) scattering.round)).toNat ∧
    (scattering.counter (digit (scattering.wordAt scattering.srcsel (scattering.idx.toNat - 1)) scattering.round)).toNat ≤
      scattering.cfg.nmax.toNat := by decide +kernel

/-- CLEAR at both ends of its range. -/
theorem witness_ClearStepZeroesOneCounter :
    (clearing.round.toNat ≤ 4 ∧ clearing.idx = 0 ∧ clearing.idx.toNat ≤ 255) ∧
    (let s := { clearing with idx := 255 }
     s.round.toNat ≤ 4 ∧ s.idx.toNat ≤ 255) := by decide

theorem witness_BoundaryStepsEnterTheNextPhase :
    (histogram.round.toNat ≤ 4 ∧ histogram.idx = histogram.len) ∧ (summed.round.toNat ≤ 4 ∧ summed.idx = 256) ∧
    (scattered.round.toNat ≤ 4 ∧ scattered.idx = 0) := by decide

/-- A PASS's end, a SORT's last end, and an end of a SORT before the last. -/
theorem witness_PassEndCompletesOrContinues :
    (cleared.round.toNat ≤ 4 ∧ cleared.idx = 256 ∧ cleared.single = true) ∧
    (let s := { cleared with single := false, round := 3 }
     s.round.toNat ≤ 4 ∧ s.idx = 256 ∧ s.round = 3) ∧
    (let s := { cleared with single := false, round := 2 }
     s.round.toNat ≤ 4 ∧ s.idx = 256 ∧ s.single = false ∧ s.round ≠ 3 ∧
       (s.cfg.assertEn = true → s.round.toNat < 3 ∧ State.countersZero s)) :=
  ⟨by decide, by decide, by decide, by decide, by decide, by decide, fun _ => ⟨by decide, zeros rfl⟩⟩

/-- The two failed assertions at PassEnd. -/
theorem witness_PassEndCompletesOrContinues_fault :
    (let s := { cleared with single := false, round := 4 }
     s.round.toNat ≤ 4 ∧ s.idx = 256 ∧ s.single = false ∧ s.round ≠ 3 ∧ s.cfg.assertEn = true ∧ s.round = 4) ∧
    (let s := { dirty with idx := 256, round := 2 }
     s.round.toNat ≤ 4 ∧ s.idx = 256 ∧ s.single = false ∧ s.round ≠ 3 ∧ s.cfg.assertEn = true ∧
       s.round.toNat < 3 ∧ ¬ State.countersZero s) :=
  ⟨by decide, by decide, by decide, by decide, by decide, by decide, by decide, dirty_nonzero rfl⟩

/-- The faults of COUNT: index at NMAX, a full counter, IDX past LEN, ROUND 4, ROUND 5. -/
theorem witness_EngineFaults_count :
    (let s := { entry with len := 20, idx := 16 }
     s.round.toNat ≤ 3 ∧ s.idx.toNat < s.len.toNat ∧ s.cfg.nmax.toNat ≤ s.idx.toNat) ∧
    (let s := { entry with cnt := (Vector.replicate 256 0).set 5 0xFFFFFFFF }
     s.round.toNat ≤ 3 ∧ s.idx.toNat < s.len.toNat ∧ s.idx.toNat < s.cfg.nmax.toNat ∧
     (State.counter s (digit (State.wordAt s s.srcsel s.idx.toNat) s.round)).toNat = 2 ^ 32 - 1) ∧
    (let s := { entry with idx := 3 }
     s.round.toNat ≤ 4 ∧ s.len.toNat < s.idx.toNat) ∧
    (let s := { entry with round := 4 }
     s.round = 4 ∧ s.idx.toNat < s.len.toNat) ∧
    (let s := { entry with round := 5 }
     5 ≤ s.round.toNat) := by decide

/-- The faults of PREFIX and CLEAR: a sum past 2^32 − 1, IDX 0, IDX 257. -/
theorem witness_EngineFaults_prefix_clear :
    (let s := { summing with cnt := ((Vector.replicate 256 0).set 0 0xFFFFFFFF).set 1 1 }
     s.round.toNat ≤ 4 ∧ 1 ≤ s.idx.toNat ∧ s.idx.toNat ≤ 255 ∧
     2 ^ 32 ≤ (State.counter s (BitVec.ofNat 8 s.idx.toNat)).toNat +
       (State.counter s (BitVec.ofNat 8 (s.idx.toNat - 1))).toNat) ∧
    (let s := { summing with idx := 0 }
     s.round.toNat ≤ 4 ∧ s.idx = 0) ∧
    (let s := { summing with idx := 257 }
     s.round.toNat ≤ 4 ∧ 256 < s.idx.toNat) := by decide

/-- The faults of SCATTER: an empty counter, IDX past NMAX, a counter past NMAX, ROUND 4. -/
theorem witness_EngineFaults_scatter :
    (let s := { scattering with cnt := Vector.replicate 256 0 }
     s.round.toNat ≤ 3 ∧ 0 < s.idx.toNat ∧ s.idx.toNat ≤ s.len.toNat ∧ s.idx.toNat ≤ s.cfg.nmax.toNat ∧
     State.counter s (digit (State.wordAt s s.srcsel (s.idx.toNat - 1)) s.round) = 0) ∧
    (let s := { scattering with len := 17, idx := 17 }
     s.round.toNat ≤ 3 ∧ 0 < s.idx.toNat ∧ s.idx.toNat ≤ s.len.toNat ∧ s.cfg.nmax.toNat < s.idx.toNat) ∧
    (let s := { scattering with cnt := (Vector.replicate 256 0).set 3 17 }
     s.round.toNat ≤ 3 ∧ 0 < s.idx.toNat ∧ s.idx.toNat ≤ s.len.toNat ∧ s.idx.toNat ≤ s.cfg.nmax.toNat ∧
     s.cfg.nmax.toNat < (State.counter s (digit (State.wordAt s s.srcsel (s.idx.toNat - 1)) s.round)).toNat) ∧
    (let s := { scattering with round := 4 }
     s.round = 4 ∧ 0 < s.idx.toNat ∧ s.idx.toNat ≤ s.len.toNat) := by decide +kernel

/-- The faults of the engine's turn: PHASE 5 and 7, and IDLE while busy. -/
theorem witness_EngineFaults_turn :
    (∀ p ∈ [5#3, 7#3], let s := { entry with phase := p }
      State.engineNext s = true ∧ s.busy = true ∧ 5 ≤ s.phase.toNat) ∧
    (let s := { entry with phase := 0 }
     State.engineNext s = true ∧ s.busy = true ∧ s.phase = phaseIdle) := by decide

theorem witness_CommandFrame :
    (∃ t, exec (.pass 0 false) faulted = .next t) ∧ ¬ faulted.ready ∧
    (∃ t, exec .sort idle = .next t) ∧ idle.ready := ⟨⟨_, rfl⟩, by decide, ⟨_, rfl⟩, by decide⟩

theorem witness_CountPrefixClearFrame :
    (∃ t, exec .count entry = .next t ∧ true = true) ∧ (∃ t, exec .prefixSum summing = .next t ∧ true = true) ∧
    (∃ t, exec .clear clearing = .next t ∧ true = true) ∧ clearing.idx.toNat ≤ 255 :=
  ⟨goesOn (fun _ => true) (by decide), goesOn (fun _ => true) (by decide), goesOn (fun _ => true) (by decide),
    by decide⟩

/-- The store at the first step of SCATTER goes to index 0 of BUF1; the boundary step stores nothing. -/
theorem witness_ScatterFrame :
    (∃ t, exec .scatter scattering = .next t ∧ true = true) ∧ 0 < scattering.idx.toNat ∧
    scattering.storeIndex (scattering.idx.toNat - 1) = 0 ∧ ¬ (0 < scattered.idx.toNat) ∧
    (∃ t, exec .scatter scattered = .next t ∧ true = true) :=
  ⟨goesOn (fun _ => true) (by decide +kernel), by decide, by decide +kernel, by decide, goesOn (fun _ => true) (by decide)⟩

/-- An engine step, a host write that moves the sequencer, and a host read. -/
theorem witness_HostAccessesLeaveCountersAndPosition :
    (∃ t, step entry = .next t ∧ true = true) ∧ entry.engineNext = true ∧
    (∃ t, step (sched sortLine idle) = .next t ∧
      decide ((t.round, t.phase, t.idx, t.srcsel, t.single) ≠
        (idle.round, idle.phase, idle.idx, idle.srcsel, idle.single)) = true) ∧
    (∃ ha v rest, (sched sortLine idle).schedule = .write ha v :: rest) ∧
    (∃ t, step (sched (rdCsr 1) idle) = .next t ∧ true = true) :=
  ⟨goesOn (fun _ => true) (by decide), by decide, goesOn _ (by decide +kernel), ⟨_, _, _, rfl⟩,
    goesOn (fun _ => true) (by decide)⟩

theorem witness_ResetSetsEveryRegister : (sched .reset entry).schedule = .reset :: [] := rfl

theorem witness_InvariantHoldsAfterReset : (Config.mk 1 false).wf ∧ (Config.mk 0xFFFFFFFF true).wf := by decide

/-- An engine step in the middle of SCATTER, and an idle host write. -/
theorem witness_StepKeepsTheInvariant :
    (Inv placing ∧ ∃ t, step placing = .next t ∧ true = true) ∧
    (Inv (sched (wrBuf true 15 7) idle) ∧ ∃ t, step (sched (wrBuf true 15 7) idle) = .next t ∧ true = true) :=
  ⟨⟨placing_inv, goesOn (fun _ => true) (by decide +kernel)⟩,
    ⟨inv_of_idle (by decide) rfl rfl, goesOn (fun _ => true) (by decide)⟩⟩

theorem witness_InvariantStatesNeverFault : Inv placing ∧ Inv idle ∧ Inv entry := ⟨placing_inv, idle_inv, entry_inv⟩

theorem witness_ReachableStatesMeetTheSequencerInvariants :
    Reachable { State.resetWith Config.initial with draws := 0, schedule := [] } ∧ State.reset.phase = phaseIdle :=
  ⟨.start _ _ _ (by decide), rfl⟩

theorem witness_AssertionsDoNotChangeTheStep :
    Inv cleared ∧ ∃ t, step cleared = .next t ∧ true = true := ⟨cleared_inv, goesOn (fun _ => true) (by decide)⟩

theorem witness_OnlyResetClearsFault :
    (∃ t, step (sched (wrCsr 1 0xFFFFFFFF) faulted) = .next t ∧ true = true) ∧
    (sched (wrCsr 1 0xFFFFFFFF) faulted).fault = true ∧
    ∀ rest, (sched (wrCsr 1 0xFFFFFFFF) faulted).schedule ≠ .reset :: rest :=
  ⟨goesOn (fun _ => true) (by decide), rfl, fun _ h => by cases h⟩

/-- DONE rises at the end of a PASS; falls by STATUS bit 1, by a command, by a reset. -/
theorem witness_DoneRisesAndFallsAsStated :
    (∃ t, step cleared = .next t ∧ (!cleared.done && t.done) = true) ∧
    (∃ t, step (sched (wrCsr 1 2) { idle with done := true }) = .next t ∧ (!t.done) = true) ∧
    (∃ t, step (sched sortLine { idle with done := true }) = .next t ∧ (!t.done) = true) ∧
    (∃ t, step (sched .reset { idle with done := true }) = .next t ∧ (!t.done) = true) :=
  ⟨goesOn _ (by decide), goesOn _ (by decide), goesOn _ (by decide +kernel), goesOn _ (by decide)⟩

/-- BUSY rises by a command; falls at the end of a PASS and by a reset. -/
theorem witness_BusyRisesAndFallsAsStated :
    (∃ t, step (sched (passLine 1 true) idle) = .next t ∧ (!idle.busy && t.busy) = true) ∧
    (∃ t, step cleared = .next t ∧ (cleared.busy && !t.busy) = true) ∧
    (∃ t, step (sched .reset entry) = .next t ∧ (!t.busy) = true) :=
  ⟨goesOn _ (by decide +kernel), goesOn _ (by decide), goesOn _ (by decide)⟩

theorem witness_BusyHostAccessLeavesTheEngine :
    (sched sortLine entry).busy = true ∧ (sched sortLine entry).done = false ∧
    (∃ ha v rest, (sched sortLine entry).schedule = .write ha v :: rest) ∧
    (∃ ha rest, (sched (rdBuf false 0) entry).schedule = .read ha :: rest) :=
  ⟨rfl, rfl, ⟨_, _, _, rfl⟩, ⟨_, _, rfl⟩⟩

/-- Two states that differ in the error state, the schedule and what the host has read. -/
theorem witness_EngineStepIgnoresTheErrorState :
    let s' := sched .wait { entry with err := true, errcode := 3, returned := [9] }
    entry.engineView = State.engineView s' ∧ entry.busy = true ∧ entry.engineNext = true ∧
    State.engineNext s' = true ∧ ∃ t, step entry = .next t ∧ true = true :=
  ⟨rfl, by decide, by decide, by decide, goesOn (fun _ => true) (by decide)⟩

/-- Two states that differ in the keys. -/
theorem witness_PathDoesNotDependOnKeys :
    Inv entry ∧ Inv otherKeys ∧ entry.control = otherKeys.control ∧ entry.busy = true ∧ entry.engineNext = true ∧
    otherKeys.engineNext = true ∧ (∃ t, step entry = .next t ∧ true = true) ∧
    ∃ t, step otherKeys = .next t ∧ true = true :=
  ⟨entry_inv, otherKeys_inv, rfl, by decide, by decide, by decide, goesOn (fun _ => true) (by decide),
    goesOn (fun _ => true) (by decide)⟩

/-- The hypotheses of CountLeavesTheHistogram, PrefixLeavesTheInclusiveSums and ScatterPlacesEveryKey. -/
theorem witness_AtPassEntry : AtPassEntry entry ∧ entry.alone :=
  ⟨⟨rfl, rfl, rfl, by decide, zeros rfl, by decide⟩, rfl⟩

/-- Different digits in round 0 (5 before 3), equal digits in round 1. -/
theorem witness_RankIsAStablePermutation :
    (1 < idle.len.toNat ∧ idle.dig 1 < idle.dig 0 ∧ idle.rank 1 < idle.rank 0) ∧
    (let s := { idle with round := 1 }
     0 < 1 ∧ 1 < s.len.toNat ∧ State.dig s 0 = State.dig s 1) := by decide

theorem witness_PassRearrangesByItsDigit :
    idle.ready ∧ idle.countersZero ∧ idle.len.toNat ≤ idle.cfg.nmax.toNat ∧ idle.alone ∧ WellFormed (.pass 3 true) :=
  ⟨by decide, zeros rfl, by decide, rfl, by decide⟩

/-- The hypotheses of MicroStepsAgreeWithBigSteps, SortSorts, SortLeavesLow24SortedInScratch, SortEqualsFourPasses. -/
theorem witness_idle_run :
    Inv idle ∧ idle.busy = false ∧ idle.alone ∧ (∃ t, exec .sort idle = .next t) ∧ WellFormed (.pass 3 true) ∧
      ∃ t, exec (.pass 3 true) idle = .next t :=
  ⟨idle_inv, rfl, rfl, ⟨_, rfl⟩, by decide, ⟨_, rfl⟩⟩

theorem witness_SortOfSortedChangesNothing :
    Inv ascending ∧ ascending.busy = false ∧ ascending.alone ∧
      (ascending.seq false).Pairwise (fun x y => x ≤ y) := ⟨ascending_inv, rfl, rfl, by decide⟩

theorem witness_EmptySequenceIsANoOp :
    Inv empty ∧ empty.busy = false ∧ empty.alone ∧ empty.len = 0 ∧ WellFormed (.pass 2 true) :=
  ⟨empty_inv, rfl, rfl, rfl, by decide⟩

/-- An engine step of a running SORT, and the two acceptances. -/
theorem witness_EngineStepsCountDown :
    (Inv entry1 ∧ entry1.busy = true ∧ entry1.engineNext = true ∧ ∃ t, step entry1 = .next t ∧ true = true) ∧
    (Inv idle ∧ idle.busy = false ∧ (∃ t, exec .sort idle = .next t) ∧ ∃ t, exec (.pass 3 true) idle = .next t) :=
  ⟨⟨entry1_inv, by decide, by decide, goesOn (fun _ => true) (by decide)⟩, idle_inv, rfl, ⟨_, rfl⟩, ⟨_, rfl⟩⟩

/-- A running PASS, and a SORT in its second round. -/
theorem witness_RunningCommandCompletes :
    (Inv entry ∧ entry.busy = true ∧ entry.alone ∧ entry.err = false) ∧
    (Inv entry1 ∧ entry1.busy = true ∧ entry1.alone ∧ entry1.single = false) :=
  ⟨⟨entry_inv, rfl, rfl, rfl⟩, ⟨entry1_inv, rfl, rfl, rfl⟩⟩

end Sys2Proof.Tests
end

section
/-! PROOFS. The control registers through the host port (10_state.md R24 to R27; 20_memory.md R32, R33, R35, R36): what
a read and a write of each of the four CSRs do, said once, and the statements O9, O10, O11 and O14. -/

namespace Sys2Proof.Machine

/-! ## The STATUS word and its write (R25, R36) -/

/-- The one-bit fields of STATUS, the reserved bit 15 among them. -/
theorem State.statusWord_flags (s : State) :
    s.statusWord.getLsbD 0 = s.busy ∧ s.statusWord.getLsbD 1 = s.done ∧ s.statusWord.getLsbD 2 = s.err ∧
    s.statusWord.getLsbD 3 = s.fault ∧ s.statusWord.getLsbD 10 = s.srcsel ∧ s.statusWord.getLsbD 11 = s.single ∧
    s.statusWord.getLsbD 15 = false := by
  unfold State.statusWord
  repeat rw [BitVec.getLsbD_append]
  simp

/-- The wider fields of STATUS, the reserved bits 31:19 among them: each is the lowest field once those below it are
dropped. -/
theorem State.statusWord_fields (s : State) :
    s.statusWord.extractLsb' 4 4 = s.errcode ∧ s.statusWord.extractLsb' 8 2 = s.fcode ∧
    s.statusWord.extractLsb' 12 3 = s.phase ∧ s.statusWord.extractLsb' 16 3 = s.round ∧
    s.statusWord.extractLsb' 19 13 = 0#13 := by
  unfold State.statusWord
  refine ⟨?_, ?_, ?_, ?_, ?_⟩ <;> repeat rw [BitVec.extractLsb'_append_eq_of_le (by decide)]
  · exact BitVec.extractLsb'_append_eq_right
  · exact BitVec.extractLsb'_append_eq_right
  · exact BitVec.extractLsb'_append_eq_right
  · exact BitVec.extractLsb'_append_eq_right
  · exact BitVec.extractLsb'_eq_self

/-- A status write as one record: DONE by bit 1, ERR and ERRCODE by bit 2 (R36). -/
theorem State.statusWrite_eq (s : State) (v : Word) :
    s.statusWrite v =
      { s with done := if v.getLsbD 1 then false else s.done,
               err := if v.getLsbD 2 then false else s.err,
               errcode := if v.getLsbD 2 then 0 else s.errcode } := by
  unfold State.statusWrite State.clearDoneIf State.clearErrIf
  cases v.getLsbD 1 <;> cases v.getLsbD 2 <;> rfl

/-! ## LEN (R35) -/

theorem lenWrite_of_le {v : Word} {s : State} (h : v.toNat ≤ s.cfg.nmax.toNat) : lenWrite v s = { s with len := v } :=
  if_neg (Nat.not_lt.mpr h)

theorem lenWrite_of_gt {v : Word} {s : State} (h : s.cfg.nmax.toNat < v.toNat) :
    lenWrite v s = s.raiseErr ErrCode.badLen :=
  if_pos h

/-! ## Issue (R60) -/

theorem issue_faulted {s : State} (h : s.fault = true) (w : Word) : issue w s = s.raiseErr ErrCode.faulted :=
  if_pos h

theorem issue_illegal {w : Word} {s : State} (hf : s.fault = false) (hd : decodeCommand w = none) :
    issue w s = s.raiseErr ErrCode.illegalCmd := by
  simp [issue, hf, hd]

/-! ## A read of each control register (R33) -/

@[simp] theorem hostRead_cmd (s : State) : hostRead (csrAddr 0) s = (0, s) := by
  simp [hostRead, State.badAddress]

@[simp] theorem hostRead_status (s : State) : hostRead (csrAddr 1) s = (s.statusWord, s) := by
  simp [hostRead, State.badAddress]

@[simp] theorem hostRead_len (s : State) : hostRead (csrAddr 2) s = (s.len, s) := by
  simp [hostRead, State.badAddress]

@[simp] theorem hostRead_cap (s : State) : hostRead (csrAddr 3) s = (s.cfg.nmax, s) := by
  simp [hostRead, State.badAddress]

/-! ## A write of each control register (R32) -/

theorem hostWrite_cmd (w : Word) (s : State) :
    hostWrite (csrAddr 0) w s = if s.busy then s.raiseErr ErrCode.busyAccess else issue w s := by
  simp [hostWrite, State.badAddress]

@[simp] theorem hostWrite_status (v : Word) (s : State) : hostWrite (csrAddr 1) v s = s.statusWrite v := by
  simp [hostWrite, State.badAddress]

theorem hostWrite_len (v : Word) (s : State) :
    hostWrite (csrAddr 2) v s = if s.busy then s.raiseErr ErrCode.busyAccess else lenWrite v s := by
  simp [hostWrite, State.badAddress]

@[simp] theorem hostWrite_cap (v : Word) (s : State) : hostWrite (csrAddr 3) v s = s.raiseErr ErrCode.roWrite := by
  simp [hostWrite, State.badAddress]

theorem hostWrite_cmd_busy {s : State} (h : s.busy = true) (w : Word) :
    hostWrite (csrAddr 0) w s = s.raiseErr ErrCode.busyAccess :=
  (hostWrite_cmd w s).trans (if_pos h)

theorem hostWrite_cmd_idle {s : State} (h : s.busy = false) (w : Word) : hostWrite (csrAddr 0) w s = issue w s :=
  (hostWrite_cmd w s).trans (if_neg (by simp [h]))

theorem hostWrite_len_busy {s : State} (h : s.busy = true) (v : Word) :
    hostWrite (csrAddr 2) v s = s.raiseErr ErrCode.busyAccess :=
  (hostWrite_len v s).trans (if_pos h)

theorem hostWrite_len_idle {s : State} (h : s.busy = false) (v : Word) : hostWrite (csrAddr 2) v s = lenWrite v s :=
  (hostWrite_len v s).trans (if_neg (by simp [h]))

/-! ## The statements -/

/-- Settles O9: the CAP lines of R32 and R33 stand before the BUSY check, so no state refuses them. -/
theorem capReadsCapacity : Obligations.CapReadsCapacity :=
  fun s => ⟨hostRead_cap s, fun v => hostWrite_cap v s⟩

/-- Settles O10: the value read is `statusWord`, whose layout is R25's; the write is R36's record. -/
theorem statusReadsAndClears : Obligations.StatusReadsAndClears := by
  intro s
  obtain ⟨hbusy, hdone, herr, hfault, hsrcsel, hsingle, hbit15⟩ := s.statusWord_flags
  obtain ⟨herrcode, hfcode, hphase, hround, hreserved⟩ := s.statusWord_fields
  exact ⟨⟨s.statusWord, hostRead_status s, hbusy, hdone, herr, hfault, herrcode, hfcode, hsrcsel, hsingle, hphase,
      hbit15, hround, hreserved⟩,
    fun v => (hostWrite_status v s).trans (s.statusWrite_eq v)⟩

/-- Settles O11: a write of LEN is `lenWrite` while idle and BUSY_ACCESS while busy; FAULT is never looked at. -/
theorem lenReadsAndWrites : Obligations.LenReadsAndWrites :=
  fun s => ⟨hostRead_len s,
    fun hidle v => ⟨fun hv => (hostWrite_len_idle hidle v).trans (lenWrite_of_le hv),
      fun hv => (hostWrite_len_idle hidle v).trans (lenWrite_of_gt hv)⟩,
    fun hbusy v => hostWrite_len_busy hbusy v⟩

/-- Settles O14: R60's refusals in their order, BUSY first; a legal word runs its command by
`exec_command_eq_hostWrite`. -/
theorem cmdReadsZeroAndIssues : Obligations.CmdReadsZeroAndIssues := by
  intro s
  refine ⟨hostRead_cmd s, fun w => ⟨fun hbusy => hostWrite_cmd_busy hbusy w, ?_, ?_, ?_⟩⟩
  · intro hidle hfault
    exact (hostWrite_cmd_idle hidle w).trans (issue_faulted hfault w)
  · rintro ⟨hidle, hfault⟩ hillegal
    exact (hostWrite_cmd_idle hidle w).trans (issue_illegal hfault hillegal)
  · intro i hlegal
    exact exec_command_eq_hostWrite hlegal s

end Sys2Proof.Machine
end

section
/-! PROOFS. Bad addresses and the key memories through the host port (20_memory.md R32 to R34, R37, R38): which
addresses select nothing, what a read and a write of a key-memory word do, said once, and the statements O8, O12 and
O13. -/

namespace Sys2Proof.Machine

/-! ## Addresses that select nothing (R34) -/

theorem hostWrite_badAddress {s : State} {ha : HostAddr} (h : s.badAddress ha) (v : Word) :
    hostWrite ha v s = s.raiseErr ErrCode.badAddr :=
  if_pos h

theorem hostRead_badAddress {s : State} {ha : HostAddr} (h : s.badAddress ha) :
    hostRead ha s = (0, s.raiseErr ErrCode.badAddr) :=
  if_pos h

/-- SPACE as a number against SPACE as two bits (R31). -/
theorem addrSpace_of_bits {ha : HostAddr} {sp : BitVec 2} (h : ha.extractLsb' 32 2 = sp) : addrSpace ha = sp.toNat :=
  congrArg BitVec.toNat h

/-! ## The words of BUF0 and BUF1 (R31, R38) -/

@[simp] theorem spaceBuf_bufAddr (b : Bool) (i : Word) : spaceBuf (addrSpace (bufAddr b i)) = b := by
  cases b <;> simp [spaceBuf]

theorem addrSpace_bufAddr_ge (b : Bool) (i : Word) : 2 ≤ addrSpace (bufAddr b i) := by
  cases b <;> simp

/-- Of a key memory's addresses only those at or above NMAX select nothing (R34). -/
@[simp] theorem State.badAddress_bufAddr (s : State) (b : Bool) (i : Word) :
    s.badAddress (bufAddr b i) ↔ s.cfg.nmax.toNat ≤ i.toNat := by
  cases b <;> simp [State.badAddress]

/-- A write to a key-memory word that exists passes every line of R32 but the BUSY check and the store. -/
theorem hostWrite_buf {s : State} {i : Word} (hi : i.toNat < s.cfg.nmax.toNat) (b : Bool) (v : Word) :
    hostWrite (bufAddr b i) v s =
      if s.busy then s.raiseErr ErrCode.busyAccess else s.writeWord b i.toNat v := by
  have hword : ¬ s.badAddress (bufAddr b i) := by simpa using hi
  have hspace : addrSpace (bufAddr b i) ≠ 0 := by have := addrSpace_bufAddr_ge b i; omega
  simp only [hostWrite, hword, hspace, if_false, false_and, spaceBuf_bufAddr, addrIndex_bufAddr]

/-- A read of a key-memory word that exists passes every line of R33 but the BUSY check and the load. -/
theorem hostRead_buf {s : State} {i : Word} (hi : i.toNat < s.cfg.nmax.toNat) (b : Bool) :
    hostRead (bufAddr b i) s =
      if s.busy then (0, s.raiseErr ErrCode.busyAccess) else (s.wordAt b i.toNat, s) := by
  have hword : ¬ s.badAddress (bufAddr b i) := by simpa using hi
  have hspace : addrSpace (bufAddr b i) ≠ 0 := by have := addrSpace_bufAddr_ge b i; omega
  simp only [hostRead, hword, hspace, if_false, false_and, spaceBuf_bufAddr, addrIndex_bufAddr]

/-- A store to a key memory changes nothing but the key memories (R38). -/
theorem State.writeWord_frame (s : State) (b : Bool) (i : Nat) (v : Word) :
    s.writeWord b i v = { s with buf0 := (s.writeWord b i v).buf0, buf1 := (s.writeWord b i v).buf1 } := by
  cases b <;> rfl

/-! ## The statements -/

/-- Settles O8: the bad-address line is the first of R32 and of R33, so no state's BUSY or FAULT is looked at. -/
theorem badAddressIsRefused : Obligations.BadAddressIsRefused := by
  intro s ha h
  have hbad : s.badAddress ha := by
    rcases h with hsp | ⟨hsp, hix⟩ | ⟨hsp | hsp, hix⟩ <;> have hsp := addrSpace_of_bits hsp
    · exact .inl hsp
    · exact .inr (.inl ⟨hsp, hix⟩)
    · exact .inr (.inr ⟨hsp.ge, hix⟩)
    · exact .inr (.inr ⟨by simp [hsp], hix⟩)
  exact ⟨fun v => hostWrite_badAddress hbad v, hostRead_badAddress hbad⟩

/-- Settles O12: each of these accesses is stopped at the BUSY check. -/
theorem busyAccessIsRefused : Obligations.BusyAccessIsRefused :=
  fun _ hbusy => ⟨fun w => hostWrite_cmd_busy hbusy w, fun v => hostWrite_len_busy hbusy v,
    fun b _ v hi => ⟨(hostWrite_buf hi b v).trans (if_pos hbusy), (hostRead_buf hi b).trans (if_pos hbusy)⟩⟩

/-- Settles O13: with BUSY = 0 the access is `wordAt` or `writeWord`; what a word reads as after the store is
`State.wordAt_writeWord`. -/
theorem idleKeyMemoryAccess : Obligations.IdleKeyMemoryAccess := by
  intro s b i hidle hi
  have hnotBusy : ¬ s.busy = true := by simp [hidle]
  exact ⟨(hostRead_buf hi b).trans (if_neg hnotBusy),
    fun v => ⟨s.writeWord b i.toNat v, (hostWrite_buf hi b v).trans (if_neg hnotBusy),
      fun b' j => s.wordAt_writeWord b b' i.toNat j v, s.writeWord_frame b i.toNat v⟩⟩

end Sys2Proof.Machine
end

section
/-! PROOFS. The legality of command words (30_encoding.md R51, R53): a command word by its fields, the two branches of
the decoder said in those fields, and the statement O2. -/

namespace Sys2Proof.Machine

/-! ## The fields of a command word: bits 31:7, 6:4 and 3:0 (R51) -/

/-- The three fields of a command word make it up. -/
theorem commandWord_eq_append (w : Word) :
    w.extractLsb' 7 25 ++ w.extractLsb' 4 3 ++ w.extractLsb' 0 4 = w := by
  rw [BitVec.extractLsb'_append_extractLsb'_eq_extractLsb' (by decide),
    BitVec.extractLsb'_append_extractLsb'_eq_extractLsb' (by decide), BitVec.extractLsb'_eq_self]

/-- Two command words are equal when their three fields are. -/
theorem commandWord_eq_iff_fields (w v : Word) :
    w = v ↔ w.extractLsb' 7 25 = v.extractLsb' 7 25 ∧ w.extractLsb' 4 3 = v.extractLsb' 4 3 ∧
      w.extractLsb' 0 4 = v.extractLsb' 0 4 := by
  constructor
  · rintro rfl
    exact ⟨rfl, rfl, rfl⟩
  · rintro ⟨hhigh, hmid, hop⟩
    rw [← commandWord_eq_append w, ← commandWord_eq_append v, hhigh, hmid, hop]

/-! ## The decoder's two branches by the fields -/

theorem eq_sortWord_iff (w : Word) :
    w = 0x00000001#32 ↔ w.extractLsb' 7 25 = 0#25 ∧ w.extractLsb' 4 3 = 0#3 ∧ w.extractLsb' 0 4 = 1#4 :=
  commandWord_eq_iff_fields w 0x00000001#32

/-- The mask of a PASS keeps bits 31:7 and 3:0 whole and drops bits 6:4, its operands. -/
theorem and_passMask_eq_iff (w : Word) :
    w &&& 0xFFFFFF8F#32 = 0x00000002#32 ↔ w.extractLsb' 7 25 = 0#25 ∧ w.extractLsb' 0 4 = 2#4 := by
  have hhigh : (0xFFFFFF8F#32).extractLsb' 7 25 = BitVec.allOnes 25 := by decide
  have hmid : (0xFFFFFF8F#32).extractLsb' 4 3 = 0#3 := by decide
  have hop : (0xFFFFFF8F#32).extractLsb' 0 4 = BitVec.allOnes 4 := by decide
  rw [commandWord_eq_iff_fields]
  simp only [BitVec.extractLsb'_and, hhigh, hmid, hop, BitVec.and_allOnes, BitVec.and_zero]
  simp

/-- A word decodes to nothing when it takes neither of the decoder's branches. -/
theorem decodeCommand_eq_none_iff (w : Word) :
    decodeCommand w = none ↔ w ≠ 0x00000001#32 ∧ w &&& 0xFFFFFF8F#32 ≠ 0x00000002#32 := by
  unfold decodeCommand
  split
  · next hsort => simp [hsort]
  · next hsort => simp [hsort]

/-- R53's three conditions: no OP of a command, a reserved bit set, or an operand where SORT has none. -/
theorem decodeCommand_eq_none_iff_fields (w : Word) :
    decodeCommand w = none ↔
      (w.extractLsb' 0 4 ≠ 1#4 ∧ w.extractLsb' 0 4 ≠ 2#4) ∨ w.extractLsb' 7 25 ≠ 0#25 ∨
        (w.extractLsb' 0 4 = 1#4 ∧ w.extractLsb' 4 3 ≠ 0#3) := by
  rw [decodeCommand_eq_none_iff, Ne, Ne, eq_sortWord_iff, and_passMask_eq_iff]
  have hops : w.extractLsb' 0 4 = 1#4 → w.extractLsb' 0 4 ≠ 2#4 := fun h => by simp [h]
  tauto

/-! ## The statement -/

/-- Settles O2: the words are those that fail both branches of the decoder, read by their fields; with BUSY = 0 and
FAULT = 0 a write to CMD reaches the decoder (R60). -/
theorem illegalWordsAreRefused : Obligations.IllegalWordsAreRefused := by
  intro w
  refine ⟨decodeCommand_eq_none_iff_fields w, ?_⟩
  rintro hillegal s ⟨hidle, hfault⟩
  exact (hostWrite_cmd_idle hidle w).trans (issue_illegal hfault hillegal)

end Sys2Proof.Machine
end

section
/-! PROOFS. Issue and acceptance of the commands (40_commands.md R60 to R62; 42_round_driver.md R98): what SORT and PASS
do in a busy, a faulted and a ready state, the fault at the pass entry, and the statements O15 and O16. -/

namespace Sys2Proof.Machine

/-! ## The issue guard (R32, R37, R60) -/

theorem issueGuard_busy {s : State} (h : s.busy = true) (run : State → State) :
    issueGuard run s = s.raiseErr ErrCode.busyAccess :=
  if_pos h

theorem issueGuard_faulted {s : State} (hidle : s.busy = false) (hfault : s.fault = true) (run : State → State) :
    issueGuard run s = s.raiseErr ErrCode.faulted := by
  simp [issueGuard, hidle, hfault]

theorem issueGuard_ready {s : State} (h : s.ready) (run : State → State) : issueGuard run s = run s := by
  obtain ⟨hidle, hnoFault⟩ := h
  simp [issueGuard, hidle, hnoFault]

/-! ## SORT and PASS through the guard -/

/-- Both commands are something run behind the issue guard. -/
theorem exec_command_eq_issueGuard {i : Instr} (h : i = .sort ∨ ∃ r src, i = .pass r src) :
    ∃ run, ∀ s, exec i s = .next (issueGuard run s) := by
  rcases h with rfl | ⟨r, src, rfl⟩
  · exact ⟨accept false 0 false, fun _ => rfl⟩
  · exact ⟨accept true r src, fun _ => rfl⟩

theorem exec_sort_ready {s : State} (h : s.ready) : exec .sort s = .next (accept false 0 false s) :=
  congrArg _ (issueGuard_ready h _)

theorem exec_pass_ready {s : State} (h : s.ready) (r : BitVec 3) (src : Bool) :
    exec (.pass r src) s = .next (accept true r src s) :=
  congrArg _ (issueGuard_ready h _)

theorem wellFormed_pass_iff (r : BitVec 3) (src : Bool) : WellFormed (.pass r src) ↔ r.toNat ≤ 3 := by
  simp [WellFormed, wellFormed]

/-! ## The fault at the pass entry (R98, R118) -/

theorem passEntry_cntNonzero {s : State} (he : s.cfg.assertEn = true) (hr : s.round.toNat ≤ 3)
    (hz : ¬ s.countersZero) : passEntry s = s.raiseFault FaultCode.cntNonzero := by
  rcases passEntry_cases s with ⟨-, hr', -⟩ | ⟨-, -, -, h⟩ | ⟨hok, -⟩
  · omega
  · exact h
  · exact absurd (hok he).2 hz

/-- Accept with a counter that is not zero, under the assertions: the fault takes back BUSY (R62, R118). -/
theorem accept_cntNonzero {single : Bool} {r : BitVec 3} {src : Bool} {s : State} (hr : r.toNat ≤ 3)
    (he : s.cfg.assertEn = true) (hz : ¬ s.countersZero) :
    accept single r src s = { s with single := single, round := r, srcsel := src, done := false, busy := false,
                                     phase := phaseIdle, idx := 0, fault := true, fcode := FaultCode.cntNonzero } := by
  have hfault := passEntry_cntNonzero
    (s := { s with single := single, round := r, srcsel := src }.flagAcceptance) he hr hz
  rw [accept, hfault]; rfl

/-! ## The statements -/

/-- Settles O15: each refusal is `raiseErr`, which writes ERR and ERRCODE only; the port and `exec` check BUSY before
FAULT, and FAULT before the word. -/
theorem rejectedCommandChangesOnlyTheError : Obligations.RejectedCommandChangesOnlyTheError := by
  refine ⟨fun s w hidle => ⟨fun hfault => ?_, fun hnoFault hillegal => ?_⟩, fun s i hi => ?_⟩
  · exact (hostWrite_cmd_idle hidle w).trans (issue_faulted hfault w)
  · exact (hostWrite_cmd_idle hidle w).trans (issue_illegal hnoFault hillegal)
  · obtain ⟨run, hrun⟩ := exec_command_eq_issueGuard hi
    exact ⟨fun hbusy => (hrun s).trans (congrArg _ (issueGuard_busy hbusy run)),
      fun hidle hfault => (hrun s).trans (congrArg _ (issueGuard_faulted hidle hfault run))⟩

/-- Settles O16: a ready state lets both commands through to `accept`, whose ROUND of at most 3 leaves the counters as
the only thing the pass entry can object to. -/
theorem acceptedCommandStartsCount : Obligations.AcceptedCommandStartsCount := by
  intro s hready
  refine ⟨fun hzero => ⟨?_, fun r src hwf => ?_⟩, fun hassert hnonzero => ⟨?_, fun r src hwf => ?_⟩⟩
  · exact (exec_sort_ready hready).trans (congrArg _ (accept_ok (by decide) hzero))
  · have hr := (wellFormed_pass_iff r src).mp hwf
    exact (exec_pass_ready hready r src).trans (congrArg _ (accept_ok hr hzero))
  · exact (exec_sort_ready hready).trans (congrArg _ (accept_cntNonzero (by decide) hassert hnonzero))
  · have hr := (wellFormed_pass_iff r src).mp hwf
    exact (exec_pass_ready hready r src).trans (congrArg _ (accept_cntNonzero hr hassert hnonzero))

end Sys2Proof.Machine
end

section
/-! PROOFS. DIGIT as a number, a masked word and a bit field (41_pass_phases.md R75), and the statement O4. -/

namespace Sys2Proof.Machine

/-! ## The mask and the shift as arithmetic -/

/-- The mask `0xFF = 2^8 − 1` keeps a word modulo 256. -/
theorem toNat_and_lowByte (w : Word) : (w &&& 0xFF#32).toNat = w.toNat % 256 :=
  (BitVec.toNat_and w 0xFF#32).trans (Nat.and_two_pow_sub_one_eq_mod w.toNat 8)

/-- The shifted and masked key, before DIGIT cuts it to 8 bits. -/
theorem toNat_shift_and_lowByte (x : Word) (n : Nat) :
    ((x >>> n) &&& 0xFF#32).toNat = x.toNat / 2 ^ n % 256 := by
  rw [toNat_and_lowByte, BitVec.toNat_ushiftRight, Nat.shiftRight_eq_div_pow]

/-- The cut to 8 bits loses nothing: the mask has left a number below 256. -/
theorem digit_toNat (x : Word) (r : BitVec 3) : (digit x r).toNat = x.toNat / 2 ^ (8 * r.toNat) % 256 := by
  rw [digit, BitVec.toNat_setWidth, toNat_shift_and_lowByte]
  exact Nat.mod_mod _ 256

/-! ## The other two forms of a digit -/

/-- Widened back to a word, a digit is the shifted and masked key itself. -/
theorem setWidth_digit (x : Word) (r : BitVec 3) :
    (digit x r).setWidth 32 = (x >>> (8 * r.toNat)) &&& 0xFF#32 := by
  apply BitVec.eq_of_toNat_eq
  rw [BitVec.toNat_setWidth_of_le (by decide), digit_toNat, toNat_shift_and_lowByte]

/-- A digit is the bit field of the key from bit `8r` up, 8 bits wide. -/
theorem digit_eq_extractLsb' (x : Word) (r : BitVec 3) : digit x r = x.extractLsb' (8 * r.toNat) 8 := by
  apply BitVec.eq_of_toNat_eq
  rw [digit_toNat, BitVec.extractLsb'_toNat, Nat.shiftRight_eq_div_pow]

/-! ## The statement -/

/-- Settles O4: both bit forms of a digit have its number, `⌊x / 2^(8r)⌋ mod 256`. -/
theorem digitIsByteOfKey : Obligations.DigitIsByteOfKey :=
  fun x r _ => ⟨setWidth_digit x r, digit_eq_extractLsb' x r, digit_toNat x r⟩

end Sys2Proof.Machine
end

section
/-! PROOFS. PassEnd (42_round_driver.md R98, R99): completion, the next pass entry and its two faults as exact records,
and the statement O22. -/

namespace Sys2Proof.Machine

/-! ## ROUND at PassEnd: its range and its step (R98, R99, R118) -/

theorem passEntry_roundRange {s : State} (he : s.cfg.assertEn = true) (hr : 3 < s.round.toNat) :
    passEntry s = s.raiseFault FaultCode.roundRange :=
  if_pos ⟨he, hr⟩

/-- The new ROUND as a number: below 7 the addition does not wrap. -/
theorem passAdvance_round_toNat {s : State} (h : s.round.toNat < 7) :
    (passAdvance s).round.toNat = s.round.toNat + 1 :=
  BitVec.toNat_add_of_lt (show s.round.toNat + 1 < 8 by omega)

/-! ## PassEnd into the next pass entry (R99) -/

theorem passEnd_eq_passEntry {s : State} (hsort : s.single = false) (hround : s.round ≠ 3) :
    passEnd s = passEntry (passAdvance s) := by
  rcases passEnd_cases s with ⟨hpass | hthree, -⟩ | ⟨-, -, hend⟩
  · simp [hsort] at hpass
  · exact absurd hthree hround
  · exact hend

/-! ## PassEnd as one record per way out -/

/-- The command completes, its last pass being over. -/
theorem passEnd_completes {s : State} (h : s.single = true ∨ s.round = 3) :
    passEnd s = { s with round := s.round + 1, srcsel := !s.srcsel, idx := 0, phase := phaseIdle, busy := false,
                         done := true } := by
  rcases passEnd_cases s with ⟨-, hend⟩ | ⟨hsort, hround, -⟩
  · exact hend
  · rcases h with hpass | hthree
    · simp [hsort] at hpass
    · exact absurd hthree hround

/-- The next round of a SORT starts in COUNT, the assertions of the pass entry holding or not built in. -/
theorem passEnd_nextRound {s : State} (hsort : s.single = false) (hround : s.round ≠ 3)
    (hok : s.cfg.assertEn = true → s.round.toNat < 3 ∧ s.countersZero) :
    passEnd s = { s with round := s.round + 1, srcsel := !s.srcsel, idx := 0, phase := phaseCount } := by
  have hentry : passEntry (passAdvance s) = (passAdvance s).enterPhase phaseCount 0 := by
    refine passEntry_ok fun hassert => ?_
    obtain ⟨hlt, hzero⟩ := hok hassert
    exact ⟨by rw [passAdvance_round_toNat (by omega)]; omega, hzero⟩
  exact (passEnd_eq_passEntry hsort hround).trans hentry

/-- ROUND steps past its terminal count 4, which the pass entry's first assertion refuses. -/
theorem passEnd_roundRange {s : State} (hsort : s.single = false) (hround : s.round = 4)
    (hassert : s.cfg.assertEn = true) :
    passEnd s = { s with round := 5, srcsel := !s.srcsel, busy := false, phase := phaseIdle, idx := 0,
                         fault := true, fcode := FaultCode.roundRange } := by
  have hnew : (passAdvance s).round = 5 := congrArg (· + 1) hround
  have hentry : passEntry (passAdvance s) = (passAdvance s).raiseFault FaultCode.roundRange :=
    passEntry_roundRange hassert (by rw [hnew]; decide)
  rw [passEnd_eq_passEntry hsort (by rw [hround]; decide), hentry, ← hnew]
  rfl

/-- A counter that is not zero stops the next round at its pass entry. -/
theorem passEnd_cntNonzero {s : State} (hsort : s.single = false) (hround : s.round.toNat < 3)
    (hassert : s.cfg.assertEn = true) (hnonzero : ¬ s.countersZero) :
    passEnd s = { s with round := s.round + 1, srcsel := !s.srcsel, busy := false, phase := phaseIdle, idx := 0,
                         fault := true, fcode := FaultCode.cntNonzero } := by
  have hmore : s.round ≠ 3 := fun h => by simp [h] at hround
  have hentry : passEntry (passAdvance s) = (passAdvance s).raiseFault FaultCode.cntNonzero :=
    passEntry_cntNonzero hassert (by rw [passAdvance_round_toNat (by omega)]; omega) hnonzero
  exact (passEnd_eq_passEntry hsort hmore).trans hentry

/-! ## The statement -/

/-- Settles O22: CLEAR at IDX = 256 is PassEnd by `execClear_end`, and PassEnd has one record per way out. -/
theorem passEndCompletesOrContinues : Obligations.PassEndCompletesOrContinues := by
  intro s hround hidx
  have hclear : exec .clear s = .next (passEnd s) := execClear_end hround (by rw [hidx]; rfl)
  rw [hclear]
  refine ⟨fun hlast => congrArg _ (passEnd_completes hlast), fun hsort hmore => ⟨?_, ?_, ?_⟩⟩
  · exact fun hok => congrArg _ (passEnd_nextRound hsort hmore hok)
  · exact fun hassert hfour => congrArg _ (passEnd_roundRange hsort hfour hassert)
  · exact fun hassert hlt hnonzero => congrArg _ (passEnd_cntNonzero hsort hlt hassert hnonzero)

end Sys2Proof.Machine
end

section
/-! PROOFS. The encoding both ways (30_encoding.md R50 to R56): a PASS word by its fields, decoding after encoding and
encoding after decoding, and the statements O1 and O3. -/

namespace Sys2Proof.Machine

/-! ## PASS words by their fields (R51) -/

/-- The encoder's sum puts `src` at bit 6 and `r` at bits 5:4, below 25 zeros and above OP = 2. -/
theorem passWord_eq_append {r : BitVec 3} (hr : r.toNat ≤ 3) (src : Bool) :
    passWord r src = 0#25 ++ (BitVec.ofBool src ++ r.setWidth 2 : BitVec 3) ++ 2#4 := by
  have hall : ∀ (r : BitVec 3) (src : Bool), r.toNat ≤ 3 →
      passWord r src = 0#25 ++ (BitVec.ofBool src ++ r.setWidth 2 : BitVec 3) ++ 2#4 := by decide
  exact hall r src hr

/-- Bits 6:4 of a command word are a PASS's `src` and `r`. -/
theorem commandWord_operands (w : Word) :
    (BitVec.ofBool (w.getLsbD 6) ++ ((w.extractLsb' 4 2).setWidth 3).setWidth 2 : BitVec 3) = w.extractLsb' 4 3 := by
  ext j hj
  simp only [BitVec.getElem_append, BitVec.getElem_setWidth, BitVec.getLsbD_setWidth, BitVec.getElem_extractLsb',
    BitVec.getLsbD_extractLsb', BitVec.getElem_ofBool]
  obtain rfl | rfl | rfl : j = 0 ∨ j = 1 ∨ j = 2 := by omega
  · simp
  · simp
  · simp

/-- A word that passes the mask of a PASS is the PASS word of its own operand bits. -/
theorem passWord_operands {w : Word} (h : w &&& 0xFFFFFF8F#32 = 0x00000002#32) :
    passWord ((w.extractLsb' 4 2).setWidth 3) (w.getLsbD 6) = w := by
  obtain ⟨hhigh, hop⟩ := (and_passMask_eq_iff w).mp h
  have hr : ((w.extractLsb' 4 2).setWidth 3).toNat ≤ 3 := by
    have := (w.extractLsb' 4 2).isLt
    simp only [BitVec.toNat_setWidth]; omega
  rw [passWord_eq_append hr, commandWord_operands]
  conv => rhs; rw [← commandWord_eq_append w, hhigh, hop]

/-! ## Commands -/

theorem decodeCommand_passWord {r : BitVec 3} (hr : r.toNat ≤ 3) (src : Bool) :
    decodeCommand (passWord r src) = some (.pass r src) := by
  have hall : ∀ (r : BitVec 3) (src : Bool), r.toNat ≤ 3 →
      decodeCommand (passWord r src) = some (.pass r src) := by decide
  exact hall r src hr

/-- What is decoded from a command word is well-formed and encodes to that word. -/
theorem encode_of_decodeCommand {w : Word} {i : Instr} (h : decodeCommand w = some i) :
    WellFormed i ∧ encode i = .command w := by
  refine ⟨?_, ?_⟩
  · rcases decodeCommand_some h with rfl | ⟨r, src, rfl, hr⟩
    · rfl
    · exact (wellFormed_pass_iff r src).mpr hr
  · unfold decodeCommand at h
    split at h
    · next hsort => cases h; exact congrArg Code.command hsort.symm
    · split at h
      · next hpass => cases h; exact congrArg Code.command (passWord_operands hpass)
      · cases h

/-! ## PHASE codes (R56) -/

/-- What is decoded from a PHASE code is well-formed and encodes to that code. -/
theorem encode_of_decodePhase {p : BitVec 3} {i : Instr} (h : decodePhase p = some i) :
    WellFormed i ∧ encode i = .phase p := by
  have hall : ∀ p : BitVec 3, ∀ i ∈ decodePhase p, WellFormed i ∧ encode i = .phase p := by decide
  exact hall p i h

/-! ## The statements -/

/-- Settles O1: a PASS word is determined by its three fields, two of them fixed by the decoder's mask; the other codes
are constants. -/
theorem decodeAndEncodeAgree : Obligations.DecodeAndEncodeAgree := by
  refine ⟨fun i hwf => ?_, fun c i h => ?_⟩
  · cases i with
    | pass r src => exact decodeCommand_passWord ((wellFormed_pass_iff r src).mp hwf) src
    | sort | count | prefixSum | scatter | clear => rfl
  · cases c with
    | command w => exact encode_of_decodeCommand h
    | phase p => exact encode_of_decodePhase h

/-- Settles O3: the sample words of vector V11 and R56, each a closed evaluation of the decoder. -/
theorem sampleWordsDecode : Obligations.SampleWordsDecode := by
  unfold Obligations.SampleWordsDecode
  decide

end Sys2Proof.Machine
end

section
/-! PROOFS. What a step is, event by event, as equations (20_memory.md R45; 42_round_driver.md R100;
70_reset_and_hazards.md R130; logs 4 to 6, 15), and the statements O5, O6, O7 and O28. -/

namespace Sys2Proof.Machine

/-! ## The host's events -/

/-- What becomes of a fetched event: an instruction is run, an outcome stands. -/
def Fetched.outcome : Fetched → Host.Outcome State Fault Refusal
  | .run i t => exec i t
  | .settled o => o

theorem step_eq_outcome (s : State) : step s = (fetch s).outcome := rfl

/-- A host write has one outcome, whether its word is a command or not: a command's is `hostWrite`'s too. -/
theorem writeTurn_outcome (ha : HostAddr) (v : Word) (s : State) :
    (writeTurn ha v s).outcome = .next (hostWrite ha v s) := by
  unfold writeTurn
  split
  · next hcmd =>
    subst hcmd
    split
    · next hd => exact exec_command_eq_hostWrite hd s
    · rfl
  · rfl

theorem step_write {s : State} {ha : HostAddr} {v : Word} {rest : List Event} (h : s.schedule = .write ha v :: rest) :
    step s = .next (hostWrite ha v (s.setSchedule rest)) := by
  have hfetch : fetch s = writeTurn ha v (s.setSchedule rest) := by simp only [fetch, h]
  rw [step_eq_outcome, hfetch, writeTurn_outcome]

theorem step_read {s : State} {ha : HostAddr} {rest : List Event} (h : s.schedule = .read ha :: rest) :
    step s = .next (readEvent ha (s.setSchedule rest)) := by
  simp only [step, fetch, h]

/-- A WAIT with BUSY = 0 is the read of STATUS that ends it (R57). -/
theorem step_wait_idle {s : State} {rest : List Event} (h : s.schedule = .wait :: rest) (hidle : s.busy = false) :
    step s = .next (readEvent (csrAddr 1) (s.setSchedule rest)) := by
  simp [step, fetch, h, hidle]

theorem step_reset {s : State} {rest : List Event} (h : s.schedule = .reset :: rest) :
    step s = .next (s.setSchedule rest).doReset := by
  simp only [step, fetch, h]

/-- A read of STATUS as an event hands the STATUS word to the host and changes nothing else. -/
theorem readEvent_status (s : State) :
    readEvent (csrAddr 1) s = { s with returned := s.statusWord :: s.returned } := by
  rw [readEvent, hostRead_status]

/-! ## The engine's turn (R100) -/

/-- The three ways the turn can be the engine's. -/
theorem engineNext_cases {s : State} (h : s.engineNext = true) :
    s.schedule = [] ∨ (∃ rest, s.schedule = .engine :: rest) ∨ ∃ rest, s.schedule = .wait :: rest := by
  unfold State.engineNext at h
  cases hs : s.schedule with
  | nil => exact .inl rfl
  | cons e rest =>
    cases e with
    | engine => exact .inr (.inl ⟨rest, rfl⟩)
    | wait => exact .inr (.inr ⟨rest, rfl⟩)
    | write | read | reset => simp [hs] at h

/-- The engine's turn takes at most the schedule's head. -/
theorem State.afterTurn_eq_setSchedule (s : State) : ∃ rest, s.afterTurn = s.setSchedule rest := by
  unfold State.afterTurn
  split
  · exact ⟨_, rfl⟩
  · exact ⟨s.schedule, rfl⟩

/-- Whoever's turn lets it, the engine's turn with BUSY = 1 starts from `afterTurn`. -/
theorem step_engineTurn {s : State} (h : s.engineNext = true) (hbusy : s.busy = true) :
    step s = (engineTurn s.afterTurn).outcome := by
  have hfetch : fetch s = engineTurn s.afterTurn := by
    rcases engineNext_cases h with hs | ⟨rest, hs⟩ | ⟨rest, hs⟩
    · simp only [fetch, State.afterTurn, hs]
    · simp only [fetch, State.afterTurn, hs]; rfl
    · simp only [fetch, State.afterTurn, hs, hbusy, if_true]
  rw [step_eq_outcome, hfetch]

/-- A turn with BUSY = 1 and a PHASE that names a micro-operation runs it. -/
theorem step_micro {s : State} {i : Instr} (h : s.engineNext = true) (hbusy : s.busy = true)
    (hphase : decodePhase s.phase = some i) : step s = exec i s.afterTurn := by
  obtain ⟨rest, hrest⟩ := s.afterTurn_eq_setSchedule
  rw [step_engineTurn h hbusy, hrest]
  simp [engineTurn, Fetched.outcome, hbusy, hphase]

/-- A turn with BUSY = 1 and a PHASE that names none stops. -/
theorem step_noMicro {s : State} (h : s.engineNext = true) (hbusy : s.busy = true)
    (hphase : decodePhase s.phase = none) :
    step s = .fault (if s.phase = phaseIdle then .busyIdle else .phaseCode) := by
  obtain ⟨rest, hrest⟩ := s.afterTurn_eq_setSchedule
  rw [step_engineTurn h hbusy, hrest]
  simp only [engineTurn, State.setSchedule_busy, State.setSchedule_phase, hbusy, hphase, if_true]
  rfl

theorem step_alone_idle {s : State} (h : s.alone) (hidle : s.busy = false) : step s = .next s := by
  simp [step, fetch, h, engineTurn, hidle]

theorem step_turn_idle {s : State} {rest : List Event} (h : s.schedule = .engine :: rest) (hidle : s.busy = false) :
    step s = .next (s.setSchedule rest) := by
  simp [step, fetch, h, engineTurn, hidle]

/-! ## Placing a table word (log 15) -/

/-- Where a table word of at most 16 bits decodes, it carries a PHASE code and that code decodes. -/
theorem decodePhase_of_decodeTableWord {nbits w : Nat} {i : Instr} (hn : nbits ≤ 16)
    (h : decodeTableWord nbits w = some i) : decodePhase ((tablePhase nbits w).getD 7) = some i := by
  rw [decodeTableWord, if_pos hn] at h
  obtain ⟨p, hp, hi⟩ := Option.bind_eq_some_iff.mp h
  rw [hp]; exact hi

theorem decodeCommand_of_decodeTableWord {nbits w : Nat} {i : Instr} (hn : ¬ nbits ≤ 16)
    (h : decodeTableWord nbits w = some i) : decodeCommand (BitVec.ofNat 32 w) = some i := by
  rw [decodeTableWord, if_neg hn] at h
  exact (Option.ite_none_right_eq_some.mp h).2

/-! ## The state after a reset (R28) -/

/-- Every counter is 0 in a counter file of 256 zeros. -/
theorem countersZero_of_replicate {s : State} (h : s.cnt = Vector.replicate 256 0) : s.countersZero := by
  intro d
  simp [State.counter, h]

theorem State.wordAt_doReset (s : State) (b : Bool) (i : Nat) :
    s.doReset.wordAt b i = Config.resetWord (s.draws + 1) b i :=
  State.wordAt_of_find_none (by cases b <;> rfl)

/-! ## The statements -/

/-- Settles O5: the engine's turn by `step_micro`; a legal command word is at once an instruction. -/
theorem stepRunsDecodedInstruction : Obligations.StepRunsDecodedInstruction := by
  refine ⟨fun s w rest i hs hd => ?_, fun s i hnext hbusy hphase => step_micro hnext hbusy hphase,
    fun s hs hidle => step_alone_idle hs hidle, fun s rest hs hidle => step_turn_idle hs hidle⟩
  exact (step_write hs).trans (exec_command_eq_hostWrite hd _).symm

/-- Settles O6: one equation per event of the host. -/
theorem hostEventsAreHostAccesses : Obligations.HostEventsAreHostAccesses := by
  refine ⟨fun s ha v rest hs => step_write hs, fun s ha rest hs => ?_, fun s rest hs hidle => ?_⟩
  · exact step_read hs
  · exact (step_wait_idle hs hidle).trans (congrArg _ (readEvent_status _))

/-- Settles O7: a command word becomes the next write to CMD, a PHASE word the next engine turn; each is used up by
the step that runs it. -/
theorem placedWordRunsNext : Obligations.PlacedWordRunsNext := by
  intro s nbits w i h
  by_cases hn : nbits ≤ 16
  · rw [State.withFetchWord, if_pos hn, if_pos hn]
    exact step_micro rfl rfl (decodePhase_of_decodeTableWord hn h)
  · rw [State.withFetchWord, if_neg hn, if_neg hn]
    have hd := decodeCommand_of_decodeTableWord hn h
    exact (step_write (s := placeCommand _ s) rfl).trans (exec_command_eq_hostWrite hd s).symm

/-- Settles O28: the step is `doReset`, which builds every register from R28's constants. -/
theorem resetSetsEveryRegister : Obligations.ResetSetsEveryRegister := by
  intro s rest hs
  refine ⟨(s.setSchedule rest).doReset, step_reset hs, countersZero_of_replicate rfl, rfl, rfl, rfl, rfl, rfl, rfl, rfl,
    rfl, rfl, rfl, rfl, rfl, State.wordAt_doReset _, rfl, rfl, rfl, rfl, hostRead_cmd _, ?_, hostRead_len _,
    hostRead_cap _, rfl⟩
  have hzero : (s.setSchedule rest).doReset.statusWord = 0 := by
    simp [State.statusWord]
  rw [hostRead_status, hzero]

end Sys2Proof.Machine
end

section
/-! PROOFS. The four micro-operations one at a time (41_pass_phases.md R77, R79, R81, R82; 42_round_driver.md R99, R100;
93_implementation_defined.md U4, U15): what each does to counters and words, its boundary step, its faults, its frame,
and the statements O17 to O21 and O23 to O26. -/

namespace Sys2Proof.Machine

/-! ## One key, one counter: what the data operations write -/

/-- Below the top of the range a counter's increment is that of its number. -/
theorem toNat_add_one {x : Word} (h : x.toNat < 2 ^ 32 - 1) : (x + 1).toNat = x.toNat + 1 :=
  BitVec.toNat_add_of_lt (show x.toNat + 1 < 2 ^ 32 by omega)

/-- Above 0 a counter's decrement is that of its number. -/
theorem toNat_sub_one {x : Word} (h : 0 < x.toNat) : (x - 1).toNat = x.toNat - 1 :=
  BitVec.toNat_sub_of_le (show (1 : Word) ≤ x from h)

/-- The digit a counter step at `i` names. -/
theorem eq_ofNat_digit_iff {i : Nat} (hi : i ≤ 255) (d : Digit) : d = BitVec.ofNat 8 i ↔ d.toNat = i := by
  rw [← BitVec.toNat_inj, BitVec.toNat_ofNat, Nat.mod_eq_of_lt (by omega)]

/-- The digit before it. -/
theorem ofNat_digit_pred {i : Nat} (h1 : 1 ≤ i) (hi : i ≤ 255) : BitVec.ofNat 8 (i - 1) = BitVec.ofNat 8 i - 1 := by
  have hone : (1 : Digit).toNat = 1 := rfl
  apply BitVec.eq_of_toNat_eq
  simp only [BitVec.toNat_sub, BitVec.toNat_ofNat, hone]
  omega

theorem toNat_counter_countKey {s : State} {i : Nat} (h : (s.counter (s.dig i)).toNat < 2 ^ 32 - 1) (d : Digit) :
    ((countKey i s).counter d).toNat = (s.counter d).toNat + if d = s.dig i then 1 else 0 := by
  rw [countKey, State.counter_setCounter]
  split
  · next hd => rw [hd, toNat_add_one h]
  · rfl

theorem toNat_counter_sumCounter {s : State} {i : Nat} (h1 : 1 ≤ i) (hi : i ≤ 255)
    (h : (s.counter (BitVec.ofNat 8 i)).toNat + (s.counter (BitVec.ofNat 8 (i - 1))).toNat < 2 ^ 32) (d : Digit) :
    ((sumCounter i s).counter d).toNat =
      (s.counter d).toNat + if d.toNat = i then (s.counter (d - 1)).toNat else 0 := by
  rw [sumCounter, State.counter_setCounter]
  by_cases hd : d.toNat = i
  · obtain rfl := (eq_ofNat_digit_iff hi d).mpr hd
    rw [if_pos rfl, if_pos hd, BitVec.toNat_add_of_lt h, ofNat_digit_pred h1 hi]
  · rw [if_neg (fun h => hd ((eq_ofNat_digit_iff hi d).mp h)), if_neg hd]; rfl

theorem counter_zeroCounter (s : State) {i : Nat} (hi : i ≤ 255) (d : Digit) :
    (zeroCounter i s).counter d = if d.toNat = i then 0 else s.counter d := by
  rw [zeroCounter, State.counter_setCounter]
  simp only [eq_ofNat_digit_iff hi]

theorem counter_placeKey (i : Nat) (s : State) (d : Digit) :
    (placeKey i s).counter d = if d = s.dig i then s.counter (s.dig i) - 1 else s.counter d := by
  rw [placeKey, State.counter_congr (State.writeWord_cnt _ _ _ _), State.counter_setCounter]

theorem toNat_counter_placeKey {s : State} {i : Nat} (h : 0 < (s.counter (s.dig i)).toNat) (d : Digit) :
    ((placeKey i s).counter d).toNat = (s.counter d).toNat - if d = s.dig i then 1 else 0 := by
  rw [counter_placeKey]
  split
  · next hd => rw [hd, toNat_sub_one h]
  · rfl

/-- The address SCATTER stores at, as the number the counter comes to. -/
theorem storeIndex_of_pos {s : State} {i : Nat} (h : 0 < (s.counter (s.dig i)).toNat) :
    s.storeIndex i = (s.counter (s.dig i)).toNat - 1 :=
  toNat_sub_one h

/-- SCATTER's store puts the key at `storeIndex` in the destination memory and changes no other word. -/
theorem wordAt_placeKey (i : Nat) (s : State) (b : Bool) (a : Nat) :
    (placeKey i s).wordAt b a = if b = s.dst ∧ a = s.storeIndex i then s.key i else s.wordAt b a :=
  State.wordAt_writeWord _ _ _ _ _ _

theorem buf_srcsel_placeKey (i : Nat) (s : State) : (placeKey i s).buf s.srcsel = s.buf s.srcsel := by
  rw [placeKey, State.buf_writeWord, if_neg (by simp [State.dst])]
  rfl

/-- SCATTER's data operation writes the key memories and the counters only. -/
theorem placeKey_frame (i : Nat) (s : State) :
    placeKey i s = { s with buf0 := (placeKey i s).buf0, buf1 := (placeKey i s).buf1, cnt := (placeKey i s).cnt } := by
  unfold placeKey State.writeWord State.setBuf
  cases s.dst <;> rfl

/-! ## The boundary steps (R100) -/

theorem execCount_boundary {s : State} (hr : s.round.toNat ≤ 4) (hi : s.idx.toNat = s.len.toNat) :
    execCount s = .next (s.enterPhase phasePrefixSum 1) := by
  unfold execCount
  rw [engineGuard_none.mpr ⟨hr, by omega, by omega⟩]
  exact if_neg (by omega)

theorem execPrefixSum_boundary {s : State} (hr : s.round.toNat ≤ 4) (hi : s.idx.toNat = 256) :
    execPrefixSum s = .next (s.enterPhase phaseScatter s.len) := by
  unfold execPrefixSum
  rw [engineGuard_none.mpr ⟨hr, by omega, by omega⟩]
  exact if_neg (by omega)

theorem execScatter_boundary {s : State} (hr : s.round.toNat ≤ 4) (hi : s.idx.toNat = 0) :
    execScatter s = .next (s.enterPhase phaseClear 0) := by
  unfold execScatter
  rw [engineGuard_none.mpr ⟨hr, by omega, by omega⟩]
  exact if_neg (by omega)

/-! ## The faults (U4, U15) -/

theorem engineGuard_roundCode {s : State} (h : 5 ≤ s.round.toNat) (lo hi : Nat) :
    engineGuard lo hi s = some .roundCode :=
  if_pos h

theorem engineGuard_idxRange {s : State} {lo hi : Nat} (hr : s.round.toNat ≤ 4)
    (h : s.idx.toNat < lo ∨ hi < s.idx.toNat) : engineGuard lo hi s = some .idxRange := by
  rw [engineGuard, if_neg (by omega), if_pos h]

theorem execCount_guarded {s : State} {f : Fault} (h : engineGuard 0 s.len.toNat s = some f) :
    execCount s = .fault f := by
  simp only [execCount, h]

theorem execPrefixSum_guarded {s : State} {f : Fault} (h : engineGuard 1 256 s = some f) :
    execPrefixSum s = .fault f := by
  simp only [execPrefixSum, h]

theorem execScatter_guarded {s : State} {f : Fault} (h : engineGuard 0 s.len.toNat s = some f) :
    execScatter s = .fault f := by
  simp only [execScatter, h]

theorem execClear_guarded {s : State} {f : Fault} (h : engineGuard 0 256 s = some f) : execClear s = .fault f := by
  simp only [execClear, h]

theorem loadKey_digitRound {s : State} (h : s.round = 4) (i : Nat) : s.loadKey i = .error .digitRound :=
  if_pos (by rw [h]; decide)

theorem loadKey_memIndex {s : State} {i : Nat} (hr : s.round.toNat ≤ 3) (h : s.cfg.nmax.toNat ≤ i) :
    s.loadKey i = .error .memIndex := by
  rw [State.loadKey, if_neg (by omega), if_pos h]

theorem execCount_loadError {s : State} {f : Fault} (hr : s.round.toNat ≤ 4) (hi : s.idx.toNat < s.len.toNat)
    (h : s.loadKey s.idx.toNat = .error f) : execCount s = .fault f := by
  simp only [execCount, engineGuard_none.mpr ⟨hr, Nat.zero_le s.idx.toNat, hi.le⟩, if_pos hi, countStep, h]

theorem execScatter_loadError {s : State} {f : Fault} (hr : s.round.toNat ≤ 4) (h0 : 0 < s.idx.toNat)
    (hi : s.idx.toNat ≤ s.len.toNat) (h : s.loadKey (s.idx.toNat - 1) = .error f) : execScatter s = .fault f := by
  simp only [execScatter, engineGuard_none.mpr ⟨hr, Nat.zero_le s.idx.toNat, hi⟩, if_pos h0, scatterStep, h]

theorem execCount_overflow {s : State} (hr : s.round.toNat ≤ 3) (hi : s.idx.toNat < s.len.toNat)
    (hn : s.idx.toNat < s.cfg.nmax.toNat) (hc : s.counter (s.dig s.idx.toNat) = BitVec.allOnes 32) :
    execCount s = .fault .counterOverflow := by
  have hguard : engineGuard 0 s.len.toNat s = none := engineGuard_none.mpr ⟨by omega, by omega, hi.le⟩
  have hload : s.loadKey s.idx.toNat = .ok (s.key s.idx.toNat) := loadKey_ok.mpr ⟨hr, hn, rfl⟩
  simp only [execCount, hguard, if_pos hi, countStep, hload]
  exact if_pos hc

theorem execPrefixSum_overflow {s : State} (hr : s.round.toNat ≤ 4) (h1 : 1 ≤ s.idx.toNat) (hi : s.idx.toNat ≤ 255)
    (hc : 2 ^ 32 ≤ (s.counter (BitVec.ofNat 8 s.idx.toNat)).toNat +
      (s.counter (BitVec.ofNat 8 (s.idx.toNat - 1))).toNat) : execPrefixSum s = .fault .counterOverflow := by
  have hguard : engineGuard 1 256 s = none := engineGuard_none.mpr ⟨hr, h1, by omega⟩
  simp only [execPrefixSum, hguard, if_pos hi]
  exact if_pos hc

/-- With the key loaded, SCATTER stops on a counter at 0, then on a store address at or above NMAX. -/
theorem execScatter_loaded {s : State} (hr : s.round.toNat ≤ 3) (h0 : 0 < s.idx.toNat)
    (hi : s.idx.toNat ≤ s.len.toNat) (hn : s.idx.toNat ≤ s.cfg.nmax.toNat) :
    (s.counter (s.dig (s.idx.toNat - 1)) = 0 → execScatter s = .fault .counterUnderflow) ∧
    (s.cfg.nmax.toNat < (s.counter (s.dig (s.idx.toNat - 1))).toNat → execScatter s = .fault .memIndex) := by
  have hguard : engineGuard 0 s.len.toNat s = none := engineGuard_none.mpr ⟨by omega, by omega, hi⟩
  have hload : s.loadKey (s.idx.toNat - 1) = .ok (s.key (s.idx.toNat - 1)) := loadKey_ok.mpr ⟨hr, by omega, rfl⟩
  simp only [execScatter, hguard, if_pos h0, scatterStep, hload]
  refine ⟨fun hc => if_pos hc, fun hc => ?_⟩
  have hstore := storeIndex_of_pos (s := s) (i := s.idx.toNat - 1) (by omega)
  have hne : s.counter (s.dig (s.idx.toNat - 1)) ≠ 0 := fun hz => by rw [hz] at hc; exact absurd hc (Nat.not_lt_zero _)
  exact (if_neg hne).trans (if_pos (by omega))

/-- The unused PHASE codes name no micro-operation (R16). -/
theorem decodePhase_unused {p : BitVec 3} (h : 5 ≤ p.toNat) : decodePhase p = none := by
  have hall : ∀ p : BitVec 3, 5 ≤ p.toNat → decodePhase p = none := by decide
  exact hall p h

/-! ## What a micro-operation leaves (R99, R100) -/

/-- PassEnd: completion, a failed assertion, or the next round's COUNT (R98, R99). -/
theorem passEnd_outcomes (s : State) :
    passEnd s = complete (passAdvance s) ∨ (∃ c, passEnd s = (passAdvance s).raiseFault c) ∨
      passEnd s = (passAdvance s).enterPhase phaseCount 0 := by
  rcases passEnd_cases s with ⟨-, h⟩ | ⟨-, -, h⟩
  · exact .inl h
  · rcases passEntry_cases (passAdvance s) with ⟨-, -, h'⟩ | ⟨-, -, -, h'⟩ | ⟨-, h'⟩
    · exact .inr (.inl ⟨_, h.trans h'⟩)
    · exact .inr (.inl ⟨_, h.trans h'⟩)
    · exact .inr (.inr (h.trans h'))

/-- PassEnd writes only the sequencer position and the flags (R99, R118). -/
theorem passEnd_frame (s : State) :
    ∃ r p j x b dn f c, passEnd s =
      { s with round := r, phase := p, idx := j, srcsel := x, busy := b, done := dn, fault := f, fcode := c } := by
  rcases passEnd_outcomes s with h | ⟨c, h⟩ | h <;> exact ⟨_, _, _, _, _, _, _, _, h⟩

/-- A micro-operation short of PassEnd writes only the key memories, the counters, PHASE and IDX. -/
theorem exec_micro_frame {i : Instr} {s t : State} (hi : i = .count ∨ i = .prefixSum ∨ i = .scatter ∨ i = .clear)
    (h : exec i s = .next t) :
    (∃ b0 b1 c p j, t = { s with buf0 := b0, buf1 := b1, cnt := c, phase := p, idx := j }) ∨
    (i = .clear ∧ s.idx.toNat = 256 ∧ t = passEnd s) := by
  rcases hi with rfl | rfl | rfl | rfl
  · rcases execCount_cases h with ⟨-, -, -, -, rfl⟩ | ⟨-, -, rfl⟩
    · exact .inl ⟨_, _, _, _, _, rfl⟩
    · exact .inl ⟨_, _, _, _, _, rfl⟩
  · rcases execPrefixSum_cases h with ⟨-, -, -, -, rfl⟩ | ⟨-, -, rfl⟩
    · exact .inl ⟨_, _, _, _, _, rfl⟩
    · exact .inl ⟨_, _, _, _, _, rfl⟩
  · rcases execScatter_cases h with ⟨-, -, -, -, -, -, rfl⟩ | ⟨-, -, rfl⟩
    · exact .inl ⟨(placeKey _ s).buf0, (placeKey _ s).buf1, (placeKey _ s).cnt, s.phase, s.idx - 1,
        congrArg (State.setIdx · (s.idx - 1)) (placeKey_frame (s.idx.toNat - 1) s)⟩
    · exact .inl ⟨_, _, _, _, _, rfl⟩
  · rcases execClear_cases h with ⟨-, -, rfl⟩ | ⟨hend, -, rfl⟩
    · exact .inl ⟨_, _, _, _, _, rfl⟩
    · exact .inr ⟨rfl, hend, rfl⟩

/-- COUNT, PREFIX and CLEAR leave both key memories as lists and the drawn contents. -/
theorem exec_countPrefixClear_buf {i : Instr} {s t : State} (hi : i = .count ∨ i = .prefixSum ∨ i = .clear)
    (h : exec i s = .next t) : (∀ b, t.buf b = s.buf b) ∧ t.draws = s.draws := by
  rcases hi with rfl | rfl | rfl
  · rcases execCount_cases h with ⟨-, -, -, -, rfl⟩ | ⟨-, -, rfl⟩ <;> exact ⟨fun _ => rfl, rfl⟩
  · rcases execPrefixSum_cases h with ⟨-, -, -, -, rfl⟩ | ⟨-, -, rfl⟩ <;> exact ⟨fun _ => rfl, rfl⟩
  · rcases execClear_cases h with ⟨-, -, rfl⟩ | ⟨-, -, rfl⟩
    · exact ⟨fun _ => rfl, rfl⟩
    · obtain ⟨r, p, j, x, b, dn, f, c, hend⟩ := passEnd_frame s
      rw [hend]; exact ⟨fun _ => rfl, rfl⟩

/-! ## The statements -/

/-- Settles O17: `execCount_key` gives the step, `toNat_counter_countKey` the counters. -/
theorem countStepCountsOneKey : Obligations.CountStepCountsOneKey := by
  intro s hr hi hn hc
  have hne : s.counter (s.dig s.idx.toNat) ≠ BitVec.allOnes 32 := fun h =>
    absurd (congrArg BitVec.toNat h) (by rw [BitVec.toNat_allOnes]; exact hc.ne)
  refine ⟨_, execCount_key hr hi hn hne, toNat_counter_countKey hc, toNat_add_one ?_, rfl⟩
  have := s.len.isLt; omega

/-- Settles O18: `execPrefixSum_counter` gives the step, `toNat_counter_sumCounter` the counters. -/
theorem prefixStepAddsOneCounter : Obligations.PrefixStepAddsOneCounter := by
  intro s hr h1 hi hc
  exact ⟨_, execPrefixSum_counter hr h1 hi hc, toNat_counter_sumCounter h1 hi hc, toNat_add_one (by omega), rfl⟩

/-- Settles O19: `execScatter_key` gives the step; the counter is taken down before the store, so `storeIndex` is one
less than the counter was. -/
theorem scatterStepPlacesOneKey : Obligations.ScatterStepPlacesOneKey := by
  intro s hr h0 hi hn hpos hle
  have hstore : s.storeIndex (s.idx.toNat - 1) + 1 = (s.counter (s.dig (s.idx.toNat - 1))).toNat := by
    rw [storeIndex_of_pos hpos]; exact Nat.sub_add_cancel hpos
  have hne : s.counter (s.dig (s.idx.toNat - 1)) ≠ 0 := fun h => hpos.ne' (congrArg BitVec.toNat h)
  have hlt : s.storeIndex (s.idx.toNat - 1) < s.cfg.nmax.toNat := by
    have : (s.counter (s.dig (s.idx.toNat - 1))).toNat ≤ s.cfg.nmax.toNat := hle
    omega
  refine ⟨_, execScatter_key hr h0 hi hn hne hlt, toNat_counter_placeKey hpos, fun b a => ?_,
    buf_srcsel_placeKey _ s, ?_, congrArg (State.setIdx · (s.idx - 1)) (placeKey_frame (s.idx.toNat - 1) s)⟩
  · have haddr : a = s.storeIndex (s.idx.toNat - 1) ↔ a + 1 = (s.counter (s.dig (s.idx.toNat - 1))).toNat := by omega
    refine (wordAt_placeKey (s.idx.toNat - 1) s b a).trans ?_
    simp only [haddr]; rfl
  · exact (congrArg (· + 1) (toNat_sub_one h0)).trans (Nat.sub_add_cancel h0)

/-- Settles O20: `execClear_counter` gives the step, `counter_zeroCounter` the counters. -/
theorem clearStepZeroesOneCounter : Obligations.ClearStepZeroesOneCounter :=
  fun s hr hi => ⟨_, execClear_counter hr hi, counter_zeroCounter s hi, toNat_add_one (by omega), rfl⟩

/-- Settles O21: one boundary lemma per phase. -/
theorem boundaryStepsEnterTheNextPhase : Obligations.BoundaryStepsEnterTheNextPhase :=
  fun _ hr => ⟨fun hi => execCount_boundary hr (congrArg BitVec.toNat hi),
    fun hi => execPrefixSum_boundary hr (congrArg BitVec.toNat hi),
    fun hi => execScatter_boundary hr (congrArg BitVec.toNat hi)⟩

/-- Settles O23: each clause is the first check of its micro-operation that fails, the guard's before the load's
before the counter's. -/
theorem engineFaultsOutsideTheInvariants : Obligations.EngineFaultsOutsideTheInvariants := by
  intro s
  refine ⟨?_, ?_, ?_, ?_, ?_, ?_, ?_, ?_, ?_, ?_, ?_⟩
  · exact fun hr hi hn => execCount_loadError (by omega) hi (loadKey_memIndex hr hn)
  · exact fun hr hi hn hc => execCount_overflow hr hi hn (BitVec.eq_of_toNat_eq hc)
  · exact fun hr h1 hi hc => execPrefixSum_overflow hr h1 hi hc
  · exact fun hr h0 hi hn hc => (execScatter_loaded hr h0 hi hn).1 hc
  · exact fun hr h0 hi hn => execScatter_loadError (by omega) h0 hi (loadKey_memIndex hr (by omega))
  · exact fun hr h0 hi hn hc => (execScatter_loaded hr h0 hi hn).2 hc
  · intro hr
    exact ⟨execCount_guarded (engineGuard_roundCode hr _ _), execPrefixSum_guarded (engineGuard_roundCode hr _ _),
      execScatter_guarded (engineGuard_roundCode hr _ _), execClear_guarded (engineGuard_roundCode hr _ _)⟩
  · exact fun hr hi => execCount_loadError (by rw [hr]; decide) hi (loadKey_digitRound hr _)
  · exact fun hr h0 hi => execScatter_loadError (by rw [hr]; decide) h0 hi (loadKey_digitRound hr _)
  · intro hr
    refine ⟨fun hi => ⟨execCount_guarded (engineGuard_idxRange hr (.inr hi)),
        execScatter_guarded (engineGuard_idxRange hr (.inr hi))⟩, fun hi => ?_,
      fun hi => ⟨execPrefixSum_guarded (engineGuard_idxRange hr (.inr hi)),
        execClear_guarded (engineGuard_idxRange hr (.inr hi))⟩⟩
    exact execPrefixSum_guarded (engineGuard_idxRange hr (.inl (by simp [hi])))
  · intro hnext hbusy
    refine ⟨fun hp => ?_, fun hp => ?_⟩
    · rw [step_noMicro hnext hbusy (decodePhase_unused hp), if_neg (fun h => by rw [h] at hp; simp at hp)]
    · rw [step_noMicro hnext hbusy (by rw [hp]; rfl), if_pos hp]

/-- Settles O24: a refused command is `raiseErr`, an accepted one is `accept`, whose frame is `accept_frame`. -/
theorem commandFrame : Obligations.CommandFrame := by
  intro i s t hi h
  have hrun : ∃ single r src, t = issueGuard (accept single r src) s := by
    rcases hi with rfl | ⟨r, src, rfl⟩ <;> cases h <;> exact ⟨_, _, _, rfl⟩
  obtain ⟨single, r, src, rfl⟩ := hrun
  rcases issueGuard_cases (accept single r src) s with ⟨hbusy, hg⟩ | ⟨hidle, hfault, hg⟩ | ⟨hidle, hnoFault, hg⟩
  · rw [hg]
    exact ⟨fun b a => State.wordAt_congr rfl rfl a, fun d => rfl, rfl, rfl, rfl, rfl, rfl,
      fun hready => absurd hready.1 (by simp [hbusy]), fun _ => rfl⟩
  · rw [hg]
    exact ⟨fun b a => State.wordAt_congr rfl rfl a, fun d => rfl, rfl, rfl, rfl, rfl, rfl,
      fun hready => absurd hready.2 (by simp [hfault]), fun _ => rfl⟩
  · obtain ⟨p, j, b, f, c, hacc⟩ := accept_frame single r src s
    rw [hg, hacc]
    exact ⟨fun b a => State.wordAt_congr rfl rfl a, fun d => rfl, rfl, rfl, rfl, rfl, rfl,
      fun _ => ⟨rfl, rfl⟩, fun hnot => absurd ⟨hidle, hnoFault⟩ hnot⟩

/-- Settles O25: no word changes by `exec_countPrefixClear_buf`, the registers by `exec_micro_frame`. -/
theorem countPrefixClearFrame : Obligations.CountPrefixClearFrame := by
  intro i s t hi h
  obtain ⟨hbuf, hdraws⟩ := exec_countPrefixClear_buf hi h
  refine ⟨fun b a => State.wordAt_congr (hbuf b) hdraws a, ?_⟩
  have hmicro : i = .count ∨ i = .prefixSum ∨ i = .scatter ∨ i = .clear := by tauto
  rcases exec_micro_frame hmicro h with ⟨b0, b1, c, p, j, ht⟩ | ⟨rfl, hend, ht⟩
  · refine ⟨by rw [ht], by rw [ht], by rw [ht], by rw [ht], by rw [ht], hdraws, by rw [ht], by rw [ht], ?_, ?_⟩
    · rintro rfl hidx
      rcases execClear_cases h with ⟨-, -, rfl⟩ | ⟨hend, -, -⟩
      · rfl
      · omega
    · exact fun _ => ⟨by rw [ht], by rw [ht], by rw [ht], by rw [ht], by rw [ht], by rw [ht]⟩
  · obtain ⟨r, p, j, x, b, dn, f, c, hpe⟩ := passEnd_frame s
    rw [ht, hpe]
    exact ⟨rfl, rfl, rfl, rfl, rfl, rfl, rfl, rfl, fun _ hidx => by omega,
      fun hnot => absurd ⟨rfl, BitVec.eq_of_toNat_eq hend⟩ hnot⟩

/-- Settles O26: a key step is `placeKey`, which writes one word and one counter; the boundary step writes neither. -/
theorem scatterFrame : Obligations.ScatterFrame := by
  intro s t h
  have hregs := exec_micro_frame (.inr (.inr (.inl rfl))) h
  obtain ⟨b0, b1, c, p, j, ht⟩ := hregs.resolve_right (fun hc => by cases hc.1)
  refine ⟨?_, ?_, by rw [ht], by rw [ht], by rw [ht], by rw [ht], by rw [ht], by rw [ht], by rw [ht], by rw [ht],
    by rw [ht], by rw [ht], by rw [ht], by rw [ht], by rw [ht], by rw [ht]⟩
  · intro b a hnot
    rcases execScatter_cases h with ⟨h0, -, -, -, -, -, rfl⟩ | ⟨-, -, rfl⟩
    · exact (wordAt_placeKey (s.idx.toNat - 1) s b a).trans (if_neg fun hc => hnot ⟨h0, hc⟩)
    · rfl
  · intro d hnot
    rcases execScatter_cases h with ⟨h0, -, -, -, -, -, rfl⟩ | ⟨-, -, rfl⟩
    · exact (counter_placeKey (s.idx.toNat - 1) s d).trans (if_neg fun hc => hnot ⟨h0, hc⟩)
    · rfl

end Sys2Proof.Machine
end

section
/-! PROOFS. What a step over any event can write, said once, and the rules over the whole machine that follow from it
(10_state.md R13, R19 to R21; 60_exceptions.md R113, R115, R118, R120, R122): the statements O27 and O34 to O38. -/

namespace Sys2Proof.Machine

/-! ## What a host access writes -/

/-- A host write accepts a command or leaves the sequencer, the counters and the fault flags; DONE it can only clear,
by bit 1 of a write to STATUS (R32, R36, R60). -/
theorem hostWrite_frame (ha : HostAddr) (v : Word) (s : State) :
    (ha = csrAddr 0 ∧ s.ready ∧ (∃ i, decodeCommand v = some i) ∧
      ∃ single r src, hostWrite ha v s = accept single r src s) ∨
    (∃ b0 b1 l dn e c, hostWrite ha v s =
        { s with buf0 := b0, buf1 := b1, len := l, done := dn, err := e, errcode := c } ∧
      (dn = s.done ∨ dn = false ∧ ha = csrAddr 1 ∧ v.getLsbD 1 = true)) := by
  rcases hostWrite_cases ha v s with ⟨c, -, -, h⟩ | ⟨rfl, h⟩ | ⟨rfl, -, -, h⟩ | ⟨rfl, hidle, h⟩ | ⟨b, i, -, -, -, h⟩
  · exact .inr ⟨_, _, _, _, _, _, h, .inl rfl⟩
  · refine .inr ⟨_, _, _, _, _, _, h.trans (s.statusWrite_eq v), ?_⟩
    cases v.getLsbD 1
    · exact .inl rfl
    · exact .inr ⟨rfl, rfl, rfl⟩
  · exact .inr ⟨_, _, _, _, _, _, h, .inl rfl⟩
  · rcases issue_cases v s with ⟨-, h'⟩ | ⟨-, -, h'⟩ | ⟨hf, hd, h'⟩ | ⟨hf, r, src, -, hd, h'⟩
    · exact .inr ⟨_, _, _, _, _, _, h.trans h', .inl rfl⟩
    · exact .inr ⟨_, _, _, _, _, _, h.trans h', .inl rfl⟩
    · exact .inl ⟨rfl, ⟨hidle, hf⟩, ⟨_, hd⟩, _, _, _, h.trans h'⟩
    · exact .inl ⟨rfl, ⟨hidle, hf⟩, ⟨_, hd⟩, _, _, _, h.trans h'⟩
  · exact .inr ⟨_, _, _, _, _, _, h.trans (s.writeWord_frame b i.toNat v), .inl rfl⟩

/-- A host read writes the error state and what the host has read (R33). -/
theorem readEvent_frame (ha : HostAddr) (s : State) :
    ∃ e c rs, readEvent ha s = { s with err := e, errcode := c, returned := rs } := by
  unfold readEvent
  rcases hostRead_cases ha s with h | ⟨c, -, h⟩
  · rw [h]; exact ⟨_, _, _, rfl⟩
  · rw [h]; exact ⟨_, _, _, rfl⟩

/-! ## What a step writes -/

/-- The micro-operations are what PHASE codes name. -/
theorem decodePhase_some {p : BitVec 3} {i : Instr} (h : decodePhase p = some i) :
    i = .count ∧ p = phaseCount ∨ i = .prefixSum ∧ p = phasePrefixSum ∨ i = .scatter ∧ p = phaseScatter ∨
      i = .clear ∧ p = phaseClear := by
  have hall : ∀ p : BitVec 3, ∀ i ∈ decodePhase p,
      i = .count ∧ p = phaseCount ∨ i = .prefixSum ∧ p = phasePrefixSum ∨ i = .scatter ∧ p = phaseScatter ∨
        i = .clear ∧ p = phaseClear := by decide
  exact hall p i h

theorem micro_of_decodePhase {p : BitVec 3} {i : Instr} (h : decodePhase p = some i) :
    i = .count ∨ i = .prefixSum ∨ i = .scatter ∨ i = .clear := by
  rcases decodePhase_some h with ⟨h, -⟩ | ⟨h, -⟩ | ⟨h, -⟩ | ⟨h, -⟩ <;> simp [h]

/-- No host access and no reset is a turn of the engine. -/
theorem engineNext_false {s : State} {e : Event} {rest : List Event} (h : s.schedule = e :: rest)
    (he : e ≠ .engine ∧ e ≠ .wait) : ¬ s.engineNext = true := by
  intro hnext
  rcases engineNext_cases hnext with hs | ⟨_, hs⟩ | ⟨_, hs⟩ <;> rw [hs] at h <;> cases h
  · exact he.1 rfl
  · exact he.2 rfl

/-- Every step, by what it writes: a host access that accepts nothing or an idle turn; an accepted command; a
micro-operation short of PassEnd; PassEnd; a reset. -/
theorem step_writes {s t : State} (h : step s = .next t) :
    (∃ b0 b1 l dn e c es rs,
      t = { s with buf0 := b0, buf1 := b1, len := l, done := dn, err := e, errcode := c, schedule := es,
                   returned := rs } ∧ (s.engineNext = true → l = s.len) ∧
      (dn = s.done ∨ dn = false ∧ ∃ v rest, s.schedule = .write (csrAddr 1) v :: rest ∧ v.getLsbD 1 = true)) ∨
    (s.ready ∧ ∃ w rest i single r src, s.schedule = .write (csrAddr 0) w :: rest ∧ decodeCommand w = some i ∧
      t = accept single r src (s.setSchedule rest)) ∨
    (s.engineNext = true ∧ s.busy = true ∧ ∃ b0 b1 c p j es,
      t = { s with buf0 := b0, buf1 := b1, cnt := c, phase := p, idx := j, schedule := es }) ∨
    (s.engineNext = true ∧ s.busy = true ∧ s.phase = phaseClear ∧ s.idx = 256 ∧
      ∃ rest, t = passEnd (s.setSchedule rest)) ∨
    (∃ rest, s.schedule = .reset :: rest ∧ t = (s.setSchedule rest).doReset) := by
  rcases step_cases h with ⟨-, -, rfl⟩ | ⟨rest, -, -, rfl⟩ | ⟨i, rest, hbusy, hphase, hsched, hexec⟩ |
    ⟨ha, v, rest, hsched, rfl⟩ | ⟨ha, rest, -, rfl⟩ | ⟨rest, hsched, rfl⟩
  · exact .inl ⟨_, _, _, _, _, _, _, _, rfl, fun _ => rfl, .inl rfl⟩
  · exact .inl ⟨_, _, _, _, _, _, _, _, rfl, fun _ => rfl, .inl rfl⟩
  · have hnext : s.engineNext = true := by
      rcases hsched with ⟨hs, rfl | ⟨r, rfl⟩⟩ | hs <;> simp [State.engineNext, hs]
    rcases exec_micro_frame (micro_of_decodePhase hphase) hexec with ⟨b0, b1, c, p, j, rfl⟩ | ⟨rfl, hend, rfl⟩
    · exact .inr (.inr (.inl ⟨hnext, hbusy, _, _, _, _, _, _, rfl⟩))
    · have hclear : s.phase = phaseClear := by
        rcases decodePhase_some hphase with ⟨hi, -⟩ | ⟨hi, -⟩ | ⟨hi, -⟩ | ⟨-, hp⟩
        · cases hi
        · cases hi
        · cases hi
        · exact hp
      exact .inr (.inr (.inr (.inl ⟨hnext, hbusy, hclear, BitVec.eq_of_toNat_eq hend, rest, rfl⟩)))
  · have hnext := engineNext_false hsched (by simp)
    rcases hostWrite_frame ha v (s.setSchedule rest) with
      ⟨rfl, hready, ⟨i, hd⟩, single, r, src, hw⟩ | ⟨b0, b1, l, dn, e, c, hw, hdone⟩
    · exact .inr (.inl ⟨hready, v, rest, i, single, r, src, hsched, hd, hw⟩)
    · refine .inl ⟨_, _, _, _, _, _, _, _, hw, fun h => absurd h hnext, hdone.imp id ?_⟩
      rintro ⟨hdn, rfl, hv⟩
      exact ⟨hdn, v, rest, hsched, hv⟩
  · obtain ⟨e, c, rs, hr⟩ := readEvent_frame ha (s.setSchedule rest)
    exact .inl ⟨_, _, _, _, _, _, _, _, hr, fun _ => rfl, .inl rfl⟩
  · exact .inr (.inr (.inr (.inr ⟨rest, hsched, rfl⟩)))

/-! ## The engine's view of two states -/

/-- `s` with another error state, other events to come and other values returned to the host. -/
def State.withHostSide (s : State) (e : Bool) (c : BitVec 4) (es : List Event) (rs : List Word) : State :=
  { s with err := e, errcode := c, schedule := es, returned := rs }

/-- States with the same engine view differ only in what the engine does not look at. -/
theorem eq_withHostSide_of_engineView {s s' : State} (h : s.engineView = s'.engineView) :
    s' = s.withHostSide s'.err s'.errcode s'.schedule s'.returned := by
  cases s; cases s'
  simp only [State.engineView, State.mk.injEq] at h
  simp only [State.withHostSide, State.mk.injEq]
  grind

section
variable (s : State) (e : Bool) (c : BitVec 4) (es : List Event) (rs : List Word)

theorem engineView_withHostSide : (s.withHostSide e c es rs).engineView = s.engineView := rfl

theorem placeKey_withHostSide (i : Nat) :
    placeKey i (s.withHostSide e c es rs) = (placeKey i s).withHostSide e c es rs := by
  have hdst : (s.withHostSide e c es rs).dst = s.dst := rfl
  unfold placeKey State.writeWord State.setBuf
  rw [hdst]
  cases s.dst <;> rfl

theorem passEntry_withHostSide :
    passEntry (s.withHostSide e c es rs) = (passEntry s).withHostSide e c es rs := by
  rcases passEntry_cases s with ⟨hassert, hr, h⟩ | ⟨hassert, hr, hz, h⟩ | ⟨hok, h⟩ <;> rw [h]
  · exact passEntry_roundRange (s := s.withHostSide e c es rs) hassert hr
  · exact passEntry_cntNonzero (s := s.withHostSide e c es rs) hassert hr hz
  · exact passEntry_ok (s := s.withHostSide e c es rs) hok

theorem passEnd_withHostSide : passEnd (s.withHostSide e c es rs) = (passEnd s).withHostSide e c es rs := by
  rcases passEnd_cases s with ⟨hlast, -⟩ | ⟨hsort, hmore, h⟩
  · rw [passEnd_completes hlast]
    exact passEnd_completes (s := s.withHostSide e c es rs) hlast
  · rw [h, passEnd_eq_passEntry (s := s.withHostSide e c es rs) hsort hmore]
    exact passEntry_withHostSide (passAdvance s) e c es rs

/-- A micro-operation does the same whatever the host's side of the state holds. -/
theorem exec_micro_withHostSide {s} {t : State} {i : Instr}
    (hi : i = .count ∨ i = .prefixSum ∨ i = .scatter ∨ i = .clear) (h : exec i s = .next t) :
    exec i (s.withHostSide e c es rs) = .next (t.withHostSide e c es rs) := by
  rcases hi with rfl | rfl | rfl | rfl
  · rcases execCount_cases h with ⟨hlt, hr, hn, hc, rfl⟩ | ⟨hend, hr, rfl⟩
    · exact execCount_key (s := s.withHostSide e c es rs) hr hlt hn hc
    · exact execCount_boundary (s := s.withHostSide e c es rs) hr hend
  · rcases execPrefixSum_cases h with ⟨h1, hlt, hr, hc, rfl⟩ | ⟨hend, hr, rfl⟩
    · exact execPrefixSum_counter (s := s.withHostSide e c es rs) hr h1 hlt hc
    · exact execPrefixSum_boundary (s := s.withHostSide e c es rs) hr hend
  · rcases execScatter_cases h with ⟨h0, hle, hr, hn, hc, hj, rfl⟩ | ⟨hend, hr, rfl⟩
    · exact (execScatter_key (s := s.withHostSide e c es rs) hr h0 hle hn hc hj).trans
        (congrArg (fun u => Host.Outcome.next (State.setIdx u (s.idx - 1))) (placeKey_withHostSide s e c es rs _))
    · exact execScatter_boundary (s := s.withHostSide e c es rs) hr hend
  · rcases execClear_cases h with ⟨hlt, hr, rfl⟩ | ⟨hend, hr, rfl⟩
    · exact execClear_counter (s := s.withHostSide e c es rs) hr hlt
    · exact (execClear_end (s := s.withHostSide e c es rs) hr hend).trans
        (congrArg _ (passEnd_withHostSide s e c es rs))

end

/-- With BUSY = 1 and DONE = 0 a host access raises an error or clears one, and does nothing else (R37, R113). -/
theorem hostWrite_busy_engineView {s : State} (hbusy : s.busy = true) (hdone : s.done = false) (ha : HostAddr)
    (v : Word) : (hostWrite ha v s).engineView = s.engineView := by
  rcases hostWrite_cases ha v s with ⟨c, -, -, h⟩ | ⟨-, h⟩ | ⟨-, hidle, -⟩ | ⟨-, hidle, -⟩ | ⟨b, i, -, hidle, -⟩
  · rw [h]; rfl
  · rw [h, State.statusWrite_eq]
    simp [State.engineView, hdone]
  · simp [hbusy] at hidle
  · simp [hbusy] at hidle
  · simp [hbusy] at hidle

/-! ## The statements -/

/-- Settles O27: of the ways to write in `step_writes`, only an accepted command is a host access that moves the
sequencer, and none that is a host access writes a counter. -/
theorem hostAccessesLeaveCountersAndPosition : Obligations.HostAccessesLeaveCountersAndPosition := by
  intro s t h
  have notEngine : (∃ ha v rest, s.schedule = .write ha v :: rest) ∨ (∃ ha rest, s.schedule = .read ha :: rest) →
      ¬ s.engineNext = true := by
    rintro (⟨ha, v, rest, hs⟩ | ⟨ha, rest, hs⟩) <;> exact engineNext_false hs (by simp)
  rcases step_writes h with ⟨b0, b1, l, dn, e, c, es, rs, rfl, hlen, -⟩ |
    ⟨hready, w, rest, i, single, r, src, hsched, hd, rfl⟩ | ⟨hnext, -, b0, b1, c, p, j, es, rfl⟩ |
    ⟨hnext, -, -, -, rest, rfl⟩ | ⟨rest, hsched, rfl⟩
  · exact ⟨rfl, hlen, fun _ => ⟨rfl, fun hmoved => absurd rfl hmoved⟩⟩
  · obtain ⟨p, j, b, f, c, hacc⟩ := accept_frame single r src (s.setSchedule rest)
    rw [hacc]
    exact ⟨rfl, fun _ => rfl, fun _ => ⟨rfl, fun _ => ⟨hready, w, rest, i, hsched, hd⟩⟩⟩
  · exact ⟨rfl, fun _ => rfl, fun hhost => absurd hnext (notEngine hhost)⟩
  · obtain ⟨r, p, j, x, b, dn, f, c, hend⟩ := passEnd_frame (s.setSchedule rest)
    rw [hend]
    exact ⟨rfl, fun _ => rfl, fun hhost => absurd hnext (notEngine hhost)⟩
  · refine ⟨rfl, fun hnext => absurd hnext (engineNext_false hsched (by simp)), ?_⟩
    rintro (⟨ha, v, rest', hs⟩ | ⟨ha, rest', hs⟩) <;> rw [hsched] at hs <;> cases hs

/-- Settles O34: acceptance needs FAULT = 0, and PassEnd can only raise FAULT. -/
theorem onlyResetClearsFault : Obligations.OnlyResetClearsFault := by
  intro s t h hfault hnoReset
  rcases step_writes h with ⟨b0, b1, l, dn, e, c, es, rs, rfl, -, -⟩ | ⟨⟨-, hnoFault⟩, -⟩ |
    ⟨-, -, b0, b1, c, p, j, es, rfl⟩ | ⟨-, -, -, -, rest, rfl⟩ | ⟨rest, hsched, -⟩
  · exact hfault
  · simp [hfault] at hnoFault
  · exact hfault
  · rcases passEnd_outcomes (s.setSchedule rest) with hp | ⟨c, hp⟩ | hp <;> rw [hp]
    · exact hfault
    · rfl
    · exact hfault
  · exact absurd hsched (hnoReset rest)

/-- Settles O35: DONE is set by completion only, which is one of PassEnd's outcomes; it is cleared by STATUS bit 1, by
acceptance and by reset. -/
theorem doneRisesAndFallsAsStated : Obligations.DoneRisesAndFallsAsStated := by
  intro s t h
  refine ⟨rfl, fun hlow hhigh => ?_, fun hhigh hlow => ?_⟩
  · rcases step_writes h with ⟨b0, b1, l, dn, e, c, es, rs, rfl, -, hdone⟩ | ⟨-, w, rest, i, single, r, src, -, -, rfl⟩
      | ⟨-, -, b0, b1, c, p, j, es, rfl⟩ | ⟨hnext, hbusy, hphase, hidx, rest, rfl⟩ | ⟨rest, -, rfl⟩
    · rcases hdone with rfl | ⟨rfl, -⟩
      · simp [hlow] at hhigh
      · cases hhigh
    · obtain ⟨p, j, b, f, c, hacc⟩ := accept_frame single r src (s.setSchedule rest)
      rw [hacc] at hhigh; cases hhigh
    · simp [hlow] at hhigh
    · rcases passEnd_outcomes (s.setSchedule rest) with hp | ⟨c, hp⟩ | hp <;> rw [hp] at hhigh ⊢
      · exact ⟨hnext, hbusy, hphase, hidx, rfl, rfl⟩
      · exact absurd (hlow.symm.trans hhigh) (by decide)
      · exact absurd (hlow.symm.trans hhigh) (by decide)
    · cases hhigh
  · rcases step_writes h with ⟨b0, b1, l, dn, e, c, es, rs, rfl, -, hdone⟩ |
      ⟨hready, w, rest, i, single, r, src, hsched, hd, rfl⟩ | ⟨-, -, b0, b1, c, p, j, es, rfl⟩ |
      ⟨-, -, -, -, rest, rfl⟩ | ⟨rest, hsched, rfl⟩
    · rcases hdone with rfl | ⟨-, hstatus⟩
      · simp [hhigh] at hlow
      · exact .inr (.inl hstatus)
    · exact .inr (.inr ⟨hready, w, rest, i, hsched, hd⟩)
    · simp [hhigh] at hlow
    · rcases passEnd_outcomes (s.setSchedule rest) with hp | ⟨c, hp⟩ | hp <;> rw [hp] at hlow
      · cases hlow
      · exact absurd (hlow.symm.trans hhigh) (by decide)
      · exact absurd (hlow.symm.trans hhigh) (by decide)
    · exact .inl ⟨rest, hsched⟩

/-- Settles O36: BUSY is set by acceptance only; it is cleared by reset and by the outcomes of PassEnd that complete the
command or fault. -/
theorem busyRisesAndFallsAsStated : Obligations.BusyRisesAndFallsAsStated := by
  intro s t h
  refine ⟨fun hlow hhigh => ?_, fun hhigh hlow => ?_⟩
  · rcases step_writes h with ⟨b0, b1, l, dn, e, c, es, rs, rfl, -, -⟩
      | ⟨⟨-, hnoFault⟩, w, rest, i, _, _, _, hsched, hd, -⟩ | ⟨-, hbusy, -⟩ | ⟨-, hbusy, -⟩ | ⟨rest, -, rfl⟩
    · simp [hlow] at hhigh
    · exact ⟨hnoFault, w, rest, i, hsched, hd⟩
    · simp [hlow] at hbusy
    · simp [hlow] at hbusy
    · cases hhigh
  · rcases step_writes h with ⟨b0, b1, l, dn, e, c, es, rs, rfl, -, -⟩ | ⟨⟨hidle, -⟩, -⟩ |
      ⟨-, -, b0, b1, c, p, j, es, rfl⟩ | ⟨hnext, -, hphase, hidx, rest, rfl⟩ | ⟨rest, hsched, -⟩
    · simp [hhigh] at hlow
    · simp [hhigh] at hidle
    · simp [hhigh] at hlow
    · refine .inr ⟨hnext, hphase, hidx, ?_⟩
      rcases passEnd_outcomes (s.setSchedule rest) with hp | ⟨c, hp⟩ | hp <;> rw [hp] at hlow ⊢
      · exact .inl rfl
      · exact .inr rfl
      · exact absurd (hlow.symm.trans hhigh) (by decide)
    · exact .inl ⟨rest, hsched⟩

/-- Settles O37: a write by `hostWrite_busy_engineView`, a read by `readEvent_frame`. -/
theorem busyHostAccessLeavesTheEngine : Obligations.BusyHostAccessLeavesTheEngine := by
  rintro s hbusy hdone (⟨ha, v, rest, hs⟩ | ⟨ha, rest, hs⟩)
  · exact ⟨_, step_write hs, hostWrite_busy_engineView (s := s.setSchedule rest) hbusy hdone ha v⟩
  · obtain ⟨e, c, rs, hr⟩ := readEvent_frame ha (s.setSchedule rest)
    exact ⟨_, step_read hs, by rw [hr]; rfl⟩

/-- Settles O38: both turns run the same micro-operation, from states that differ in the host's side only. -/
theorem engineStepIgnoresTheErrorState : Obligations.EngineStepIgnoresTheErrorState := by
  intro s s' t hview hbusy hnext hnext' h
  have hs' := eq_withHostSide_of_engineView hview
  cases hd : decodePhase s.phase with
  | none => rw [step_noMicro hnext hbusy hd] at h; cases h
  | some i =>
    have hbusy' : s'.busy = true := by rw [hs']; exact hbusy
    have hd' : decodePhase s'.phase = some i := by rw [hs']; exact hd
    obtain ⟨rest, hturn⟩ := s.afterTurn_eq_setSchedule
    obtain ⟨rest', hturn'⟩ := s'.afterTurn_eq_setSchedule
    rw [step_micro hnext hbusy hd, hturn] at h
    refine ⟨t.withHostSide s'.err s'.errcode rest' s'.returned, ?_, engineView_withHostSide t _ _ _ _⟩
    have hstart : s'.setSchedule rest' = (s.setSchedule rest).withHostSide s'.err s'.errcode rest' s'.returned :=
      congrArg (State.setSchedule · rest') hs'
    rw [step_micro hnext' hbusy' hd', hturn', hstart]
    exact exec_micro_withHostSide _ _ _ _ (micro_of_decodePhase hd) h

end Sys2Proof.Machine
end

section
/-! PROOFS. The place `p(i)` of a key (41_pass_phases.md R84): its range, its order, and the statement O43. -/

namespace Sys2Proof.Machine

/-- A key's place lies in the range of its digit (R80). -/
theorem State.rank_lt_incl (s : State) {i : Nat} (hi : i < s.len.toNat) : s.rank i < s.incl (s.dig i) := by
  have hbelow : s.countBelow i (s.dig i) < s.histogram (s.dig i) := s.countBelow_lt hi
  rw [State.rank, State.incl_eq]
  omega

theorem State.rank_lt_len (s : State) {i : Nat} (hi : i < s.len.toNat) : s.rank i < s.len.toNat :=
  (s.rank_lt_incl hi).trans_le (s.incl_le _)

/-- A smaller digit gets a smaller place: the digits' ranges are disjoint. -/
theorem State.rank_lt_of_dig_lt (s : State) {i j : Nat} (hi : i < s.len.toNat) (h : s.dig i < s.dig j) :
    s.rank i < s.rank j :=
  calc s.rank i < s.incl (s.dig i) := s.rank_lt_incl hi
    _ ≤ s.excl (s.dig j) := s.incl_le_excl h
    _ ≤ s.rank j := Nat.le_add_right _ _

/-- Of two keys with one digit the earlier gets the smaller place. -/
theorem State.rank_lt_of_dig_eq (s : State) {i j : Nat} (hij : i < j) (h : s.dig i = s.dig j) :
    s.rank i < s.rank j := by
  have hbelow := s.countBelow_lt hij
  rw [State.rank, State.rank, ← h]
  omega

/-- Two keys never share a place: their digits or their indices tell the places apart. -/
theorem State.rank_injective (s : State) {i j : Nat} (hi : i < s.len.toNat) (hj : j < s.len.toNat)
    (h : s.rank i = s.rank j) : i = j := by
  rcases lt_trichotomy (s.dig i).toNat (s.dig j).toNat with hd | hd | hd
  · exact absurd h (s.rank_lt_of_dig_lt hi hd).ne
  · rcases lt_trichotomy i j with hij | hij | hij
    · exact absurd h (s.rank_lt_of_dig_eq hij (BitVec.eq_of_toNat_eq hd)).ne
    · exact hij
    · exact absurd h (s.rank_lt_of_dig_eq hij (BitVec.eq_of_toNat_eq hd.symm)).ne'
  · exact absurd h (s.rank_lt_of_dig_lt hj hd).ne'

/-- Settles O43: range, injectivity and the two orders of `rank`. -/
theorem rankIsAStablePermutation : Obligations.RankIsAStablePermutation :=
  fun s => ⟨fun _ hi => s.rank_lt_len hi, fun _ _ hi hj h => s.rank_injective hi hj h,
    fun _ _ hi _ h => s.rank_lt_of_dig_lt hi h, fun _ _ hij _ h => s.rank_lt_of_dig_eq hij h⟩

end Sys2Proof.Machine
end

section
/-! PROOFS. One pass step by step (41_pass_phases.md R77 to R87; 42_round_driver.md R100): the state inside a pass, the
one step the engine takes from it, and that the step keeps it. -/

namespace Sys2Proof.Machine

/-! ## The state inside a pass -/

/-- PHASE names a micro-operation and IDX lies in its range (R101). -/
def State.inRange (s : State) : Prop :=
  s.phase = phaseCount ∧ s.idx.toNat ≤ s.len.toNat ∨
  s.phase = phasePrefixSum ∧ 1 ≤ s.idx.toNat ∧ s.idx.toNat ≤ 256 ∨
  s.phase = phaseScatter ∧ s.idx.toNat ≤ s.len.toNat ∨
  s.phase = phaseClear ∧ s.idx.toNat ≤ 256

/-- The part of the invariant a running pass rests on: the ranges, and how far the counters and the placed keys have
come. It says nothing of the flags, the command or the error state. -/
structure InPass (s : State) : Prop where
  round_le : s.round.toNat ≤ 3
  len_le : s.len.toNat ≤ s.cfg.nmax.toNat
  range : s.inRange
  counters : ∀ d, (s.counter d).toNat = s.expectedCounter d
  placed : s.phase = phaseScatter ∨ s.phase = phaseClear →
    ∀ i, s.placedFrom ≤ i → i < s.len.toNat → s.wordAt s.dst (s.rank i) = s.key i

/-- Where a running pass is: a key or counter step, or a boundary, of one of the four phases. -/
theorem InPass.cases {s : State} (h : InPass s) :
    (s.phase = phaseCount ∧ s.idx.toNat < s.len.toNat) ∨ (s.phase = phaseCount ∧ s.idx.toNat = s.len.toNat) ∨
    (s.phase = phasePrefixSum ∧ 1 ≤ s.idx.toNat ∧ s.idx.toNat ≤ 255) ∨
    (s.phase = phasePrefixSum ∧ s.idx.toNat = 256) ∨
    (s.phase = phaseScatter ∧ 0 < s.idx.toNat ∧ s.idx.toNat ≤ s.len.toNat) ∨
    (s.phase = phaseScatter ∧ s.idx.toNat = 0) ∨
    (s.phase = phaseClear ∧ s.idx.toNat ≤ 255) ∨ (s.phase = phaseClear ∧ s.idx.toNat = 256) := by
  rcases h.range with ⟨hp, hi⟩ | ⟨hp, h1, hi⟩ | ⟨hp, hi⟩ | ⟨hp, hi⟩ <;> simp only [hp] <;> simp <;> omega

/-! ## The engine's step -/

/-- The state the engine's step answers inside a pass (R100). -/
def State.advance (s : State) : State :=
  if s.phase = phaseCount then
    if s.idx.toNat < s.len.toNat then (countKey s.idx.toNat s).setIdx (s.idx + 1) else s.enterPhase phasePrefixSum 1
  else if s.phase = phasePrefixSum then
    if s.idx.toNat ≤ 255 then (sumCounter s.idx.toNat s).setIdx (s.idx + 1) else s.enterPhase phaseScatter s.len
  else if s.phase = phaseScatter then
    if 0 < s.idx.toNat then (placeKey (s.idx.toNat - 1) s).setIdx (s.idx - 1) else s.enterPhase phaseClear 0
  else if s.idx.toNat ≤ 255 then (zeroCounter s.idx.toNat s).setIdx (s.idx + 1) else passEnd s

section
variable {s : State}

theorem State.advance_countKey (hp : s.phase = phaseCount) (hi : s.idx.toNat < s.len.toNat) :
    s.advance = (countKey s.idx.toNat s).setIdx (s.idx + 1) := by
  simp [State.advance, hp, hi]

theorem State.advance_countEnd (hp : s.phase = phaseCount) (hi : s.idx.toNat = s.len.toNat) :
    s.advance = s.enterPhase phasePrefixSum 1 := by
  simp [State.advance, hp, hi]

theorem State.advance_sumCounter (hp : s.phase = phasePrefixSum) (hi : s.idx.toNat ≤ 255) :
    s.advance = (sumCounter s.idx.toNat s).setIdx (s.idx + 1) := by
  simp [State.advance, hp, hi]

theorem State.advance_prefixEnd (hp : s.phase = phasePrefixSum) (hi : s.idx.toNat = 256) :
    s.advance = s.enterPhase phaseScatter s.len := by
  simp [State.advance, hp, hi]

theorem State.advance_placeKey (hp : s.phase = phaseScatter) (hi : 0 < s.idx.toNat) :
    s.advance = (placeKey (s.idx.toNat - 1) s).setIdx (s.idx - 1) := by
  simp [State.advance, hp, hi]

theorem State.advance_scatterEnd (hp : s.phase = phaseScatter) (hi : s.idx.toNat = 0) :
    s.advance = s.enterPhase phaseClear 0 := by
  simp [State.advance, hp, hi]

theorem State.advance_zeroCounter (hp : s.phase = phaseClear) (hi : s.idx.toNat ≤ 255) :
    s.advance = (zeroCounter s.idx.toNat s).setIdx (s.idx + 1) := by
  simp [State.advance, hp, hi]

theorem State.advance_clearEnd (hp : s.phase = phaseClear) (hi : s.idx.toNat = 256) : s.advance = passEnd s := by
  simp [State.advance, hp, hi]

end

/-! ## What the counters are when the engine uses them: no step of a pass faults (R86) -/

/-- COUNT's counter is far from its top: it has counted fewer than LEN keys. -/
theorem InPass.counter_lt {s : State} (h : InPass s) (hp : s.phase = phaseCount) (hi : s.idx.toNat < s.len.toNat)
    (d : Digit) : (s.counter d).toNat < 2 ^ 32 - 1 := by
  have hle := s.countBelow_le s.idx.toNat d
  have hlen := s.len.isLt
  rw [h.counters, State.expectedCounter_count hp]
  omega

/-- PREFIX at counter `d` finds the histogram there and the inclusive sum below; they add up to the inclusive sum. -/
theorem InPass.counter_add_pred {s : State} (h : InPass s) (hp : s.phase = phasePrefixSum) (h1 : 1 ≤ s.idx.toNat)
    {d : Digit} (hd : d.toNat = s.idx.toNat) : (s.counter d).toNat + (s.counter (d - 1)).toNat = s.incl d := by
  have hpred : d.toNat = (d - 1).toNat + 1 := by
    have hone : (1 : Digit).toNat = 1 := rfl
    have := d.isLt
    rw [BitVec.toNat_sub_of_le (by rw [BitVec.le_def, hone]; omega), hone]; omega
  rw [h.counters, h.counters, State.expectedCounter_prefix hp, State.expectedCounter_prefix hp, if_neg (by omega),
    if_pos (by omega), State.incl_eq s d, State.excl_eq_incl_pred s hpred]
  omega

/-- PREFIX's addition does not overflow: the sum is at most LEN. -/
theorem InPass.sum_lt {s : State} (h : InPass s) (hp : s.phase = phasePrefixSum) (h1 : 1 ≤ s.idx.toNat)
    (hi : s.idx.toNat ≤ 255) :
    (s.counter (BitVec.ofNat 8 s.idx.toNat)).toNat + (s.counter (BitVec.ofNat 8 (s.idx.toNat - 1))).toNat < 2 ^ 32 := by
  have hle := s.incl_le (BitVec.ofNat 8 s.idx.toNat)
  have hlen := s.len.isLt
  rw [ofNat_digit_pred h1 hi, h.counter_add_pred hp h1 ((eq_ofNat_digit_iff hi _).mp rfl)]
  omega

/-- SCATTER finds the counter of the next key one above that key's place (R84). -/
theorem InPass.counter_eq_rank {s : State} (h : InPass s) (hp : s.phase = phaseScatter) (h0 : 0 < s.idx.toNat) :
    (s.counter (s.dig (s.idx.toNat - 1))).toNat = s.rank (s.idx.toNat - 1) + 1 := by
  have hidx : s.idx.toNat = s.idx.toNat - 1 + 1 := by omega
  have hcount := s.countBelow_succ (s.idx.toNat - 1) (s.dig (s.idx.toNat - 1))
  rw [← hidx, if_pos rfl] at hcount
  rw [h.counters, State.expectedCounter_scatter hp, hcount, State.rank, Nat.add_assoc]

theorem InPass.storeIndex_eq_rank {s : State} (h : InPass s) (hp : s.phase = phaseScatter) (h0 : 0 < s.idx.toNat) :
    s.storeIndex (s.idx.toNat - 1) = s.rank (s.idx.toNat - 1) := by
  have hc := h.counter_eq_rank hp h0
  rw [storeIndex_of_pos (by omega), hc, Nat.add_sub_cancel]

/-- CLEAR at its boundary leaves every counter 0 (R14). -/
theorem InPass.countersZero_of_clearEnd {s : State} (h : InPass s) (hp : s.phase = phaseClear)
    (hi : s.idx.toNat = 256) : s.countersZero := by
  intro d
  apply BitVec.eq_of_toNat_eq
  rw [h.counters, State.expectedCounter_clear hp, if_pos (by have := d.isLt; omega)]
  rfl

/-- Inside a pass the micro-operation PHASE names goes on, to `advance`. -/
theorem InPass.exec_eq {s : State} (h : InPass s) : ∃ i, decodePhase s.phase = some i ∧ exec i s = .next s.advance := by
  have hr := h.round_le
  have hn := h.len_le
  rcases h.cases with ⟨hp, hi⟩ | ⟨hp, hi⟩ | ⟨hp, h1, hi⟩ | ⟨hp, hi⟩ | ⟨hp, h0, hi⟩ | ⟨hp, hi⟩ | ⟨hp, hi⟩ | ⟨hp, hi⟩
  · refine ⟨.count, by rw [hp]; rfl, ?_⟩
    have hc := h.counter_lt hp hi (s.dig s.idx.toNat)
    rw [State.advance_countKey hp hi]
    exact execCount_key hr hi (by omega) fun hall => by rw [hall, BitVec.toNat_allOnes] at hc; omega
  · exact ⟨.count, by rw [hp]; rfl, by rw [State.advance_countEnd hp hi]; exact execCount_boundary (by omega) hi⟩
  · exact ⟨.prefixSum, by rw [hp]; rfl, by
      rw [State.advance_sumCounter hp hi]; exact execPrefixSum_counter (by omega) h1 hi (h.sum_lt hp h1 hi)⟩
  · exact ⟨.prefixSum, by rw [hp]; rfl, by
      rw [State.advance_prefixEnd hp hi]; exact execPrefixSum_boundary (by omega) hi⟩
  · refine ⟨.scatter, by rw [hp]; rfl, ?_⟩
    have hc := h.counter_eq_rank hp h0
    have hrank := s.rank_lt_len (i := s.idx.toNat - 1) (by omega)
    rw [State.advance_placeKey hp h0]
    refine execScatter_key hr h0 hi (by omega) (fun hz => ?_) (by rw [h.storeIndex_eq_rank hp h0]; omega)
    rw [hz] at hc; exact absurd hc (Nat.succ_ne_zero _).symm
  · exact ⟨.scatter, by rw [hp]; rfl, by rw [State.advance_scatterEnd hp hi]; exact execScatter_boundary (by omega) hi⟩
  · exact ⟨.clear, by rw [hp]; rfl, by rw [State.advance_zeroCounter hp hi]; exact execClear_counter (by omega) hi⟩
  · exact ⟨.clear, by rw [hp]; rfl, by rw [State.advance_clearEnd hp hi]; exact execClear_end (by omega) hi⟩

/-! ## Each step keeps the state inside the pass -/

/-- The counting terms of two states with the same digits and LEN agree. -/
structure SameDigits (s t : State) : Prop where
  dig : ∀ i, t.dig i = s.dig i
  len : t.len = s.len

/-- A step that leaves the source memory, SRCSEL, ROUND and the drawn contents leaves the digits. -/
theorem sameDigits {s t : State} (hb : t.buf s.srcsel = s.buf s.srcsel) (hs : t.srcsel = s.srcsel)
    (hd : t.draws = s.draws) (hr : t.round = s.round) (hl : t.len = s.len) : SameDigits s t :=
  ⟨State.dig_congr hb hs hd hr, hl⟩

section
variable {s : State}

theorem InPass.advance_countKey (h : InPass s) (hp : s.phase = phaseCount) (hi : s.idx.toNat < s.len.toNat) :
    InPass s.advance := by
  have hidx : (s.idx + 1).toNat = s.idx.toNat + 1 := toNat_add_one (by have := s.len.isLt; omega)
  rw [State.advance_countKey hp hi]
  have hsame : SameDigits s ((countKey s.idx.toNat s).setIdx (s.idx + 1)) := sameDigits rfl rfl rfl rfl rfl
  refine ⟨h.round_le, h.len_le, .inl ⟨hp, hidx.trans_le hi⟩, fun d => ?_, fun hp' => ?_⟩
  · have hcount := toNat_counter_countKey (h.counter_lt hp hi (s.dig s.idx.toNat)) d
    rw [h.counters, State.expectedCounter_count hp] at hcount
    rw [State.expectedCounter_count (s := (countKey _ s).setIdx _) hp, State.countBelow_congr hsame.dig,
      State.setIdx_idx, hidx, State.countBelow_succ]
    simp only [@eq_comm _ d] at hcount
    exact hcount
  · exact absurd (hp'.imp hp.symm.trans hp.symm.trans) (by decide)

theorem InPass.advance_countEnd (h : InPass s) (hp : s.phase = phaseCount) (hi : s.idx.toNat = s.len.toNat) :
    InPass s.advance := by
  rw [State.advance_countEnd hp hi]
  have hsame : SameDigits s (s.enterPhase phasePrefixSum 1) := sameDigits rfl rfl rfl rfl rfl
  have hone : (1 : Word).toNat = 1 := rfl
  refine ⟨h.round_le, h.len_le, .inr (.inl ⟨rfl, by simp, by simp⟩), fun d => ?_, fun hp' => ?_⟩
  · rw [State.expectedCounter_prefix (s := s.enterPhase _ _) rfl, State.incl_congr hsame.dig hsame.len,
      State.histogram_congr hsame.dig hsame.len, State.enterPhase_idx, hone]
    have hcounter : (s.counter d).toNat = s.histogram d := by
      rw [h.counters, State.expectedCounter_count hp, hi]; rfl
    split
    · next hd =>
      obtain rfl : d = 0#8 := BitVec.eq_of_toNat_eq (by simpa using hd)
      rw [State.incl_eq, State.excl_zero, Nat.zero_add]; exact hcounter
    · exact hcounter
  · exact absurd (show phasePrefixSum = phaseScatter ∨ phasePrefixSum = phaseClear from hp') (by decide)

theorem InPass.advance_sumCounter (h : InPass s) (hp : s.phase = phasePrefixSum) (h1 : 1 ≤ s.idx.toNat)
    (hi : s.idx.toNat ≤ 255) : InPass s.advance := by
  have hidx : (s.idx + 1).toNat = s.idx.toNat + 1 := toNat_add_one (by omega)
  rw [State.advance_sumCounter hp hi]
  have hsame : SameDigits s ((sumCounter s.idx.toNat s).setIdx (s.idx + 1)) := sameDigits rfl rfl rfl rfl rfl
  have hrange : 1 ≤ (s.idx + 1).toNat ∧ (s.idx + 1).toNat ≤ 256 := by omega
  refine ⟨h.round_le, h.len_le, .inr (.inl ⟨hp, hrange⟩), fun d => ?_, fun hp' => ?_⟩
  · have hsum := toNat_counter_sumCounter h1 hi (h.sum_lt hp h1 hi) d
    rw [State.expectedCounter_prefix (s := (sumCounter _ s).setIdx _) hp, State.incl_congr hsame.dig hsame.len,
      State.histogram_congr hsame.dig hsame.len, State.setIdx_idx, hidx]
    refine hsum.trans ?_
    by_cases hd : d.toNat = s.idx.toNat
    · rw [if_pos hd, h.counter_add_pred hp h1 hd, if_pos (by omega)]
    · rw [if_neg hd, h.counters, State.expectedCounter_prefix hp]
      simp only [show d.toNat < s.idx.toNat + 1 ↔ d.toNat < s.idx.toNat by omega, Nat.add_zero]
  · exact absurd (hp'.imp hp.symm.trans hp.symm.trans) (by decide)

theorem InPass.advance_prefixEnd (h : InPass s) (hp : s.phase = phasePrefixSum) (hi : s.idx.toNat = 256) :
    InPass s.advance := by
  rw [State.advance_prefixEnd hp hi]
  have hsame : SameDigits s (s.enterPhase phaseScatter s.len) := sameDigits rfl rfl rfl rfl rfl
  refine ⟨h.round_le, h.len_le, .inr (.inr (.inl ⟨rfl, Nat.le_refl _⟩)), fun d => ?_, fun _ i hfrom hi => ?_⟩
  · rw [State.expectedCounter_scatter (s := s.enterPhase _ _) rfl, State.excl_congr hsame.dig hsame.len,
      State.countBelow_congr hsame.dig]
    have hd := d.isLt
    exact (h.counters d).trans (by rw [State.expectedCounter_prefix hp, if_pos (by omega), State.incl_eq]; rfl)
  · rw [State.placedFrom_scatter rfl] at hfrom
    exact absurd hi (Nat.not_lt.mpr hfrom)

/-- SCATTER's data operation leaves every register. -/
theorem placeKey_registers (i : Nat) (s : State) :
    (placeKey i s).srcsel = s.srcsel ∧ (placeKey i s).draws = s.draws ∧ (placeKey i s).round = s.round ∧
      (placeKey i s).len = s.len ∧ (placeKey i s).cfg = s.cfg ∧ (placeKey i s).phase = s.phase := by
  rw [placeKey_frame]
  exact ⟨rfl, rfl, rfl, rfl, rfl, rfl⟩

/-- After SCATTER's key step the counters are down to the keys before it. -/
theorem InPass.counters_placeKey (h : InPass s) (hp : s.phase = phaseScatter) (h0 : 0 < s.idx.toNat) (d : Digit) :
    ((placeKey (s.idx.toNat - 1) s).counter d).toNat = s.excl d + s.countBelow (s.idx.toNat - 1) d := by
  have hc := h.counter_eq_rank hp h0
  have hidx : s.idx.toNat = s.idx.toNat - 1 + 1 := by omega
  have hcount := s.countBelow_succ (s.idx.toNat - 1) d
  rw [← hidx] at hcount
  rw [toNat_counter_placeKey (by omega), h.counters, State.expectedCounter_scatter hp, hcount]
  simp only [@eq_comm _ d]
  omega

/-- After SCATTER's key step that key is at its place, and so are those placed before it. -/
theorem InPass.placed_placeKey (h : InPass s) (hp : s.phase = phaseScatter) (h0 : 0 < s.idx.toNat)
    {i : Nat} (hfrom : s.idx.toNat - 1 ≤ i) (hlt : i < s.len.toNat) :
    (placeKey (s.idx.toNat - 1) s).wordAt s.dst (s.rank i) = s.key i := by
  rw [wordAt_placeKey, h.storeIndex_eq_rank hp h0]
  rcases hfrom.eq_or_lt with rfl | hgt
  · exact if_pos ⟨rfl, rfl⟩
  · rw [if_neg fun hc => hgt.ne' (s.rank_injective hlt (by omega) hc.2)]
    exact h.placed (.inl hp) i (by rw [State.placedFrom_scatter hp]; omega) hlt

theorem InPass.advance_placeKey (h : InPass s) (hp : s.phase = phaseScatter) (h0 : 0 < s.idx.toNat)
    (hi : s.idx.toNat ≤ s.len.toNat) : InPass s.advance := by
  have hidx : (s.idx - 1).toNat = s.idx.toNat - 1 := toNat_sub_one h0
  have hsrc := buf_srcsel_placeKey (s.idx.toNat - 1) s
  obtain ⟨hsel, hdraws, hround, hlen, hcfg, hphase⟩ := placeKey_registers (s.idx.toNat - 1) s
  have hcounters := h.counters_placeKey hp h0
  have hplaced := fun i => h.placed_placeKey (i := i) hp h0
  rw [State.advance_placeKey hp h0]
  generalize placeKey (s.idx.toNat - 1) s = u at *
  have hsame : SameDigits s (u.setIdx (s.idx - 1)) := sameDigits hsrc hsel hdraws hround hlen
  have hscatter : (u.setIdx (s.idx - 1)).phase = phaseScatter := hphase.trans hp
  refine ⟨hround ▸ h.round_le, ?_, .inr (.inr (.inl ⟨hscatter, ?_⟩)), fun d => ?_, fun _ i hfrom hlt => ?_⟩
  · rw [State.setIdx_len, State.setIdx_cfg, hlen, hcfg]; exact h.len_le
  · rw [State.setIdx_idx, State.setIdx_len, hidx, hlen]; omega
  · rw [State.expectedCounter_scatter hscatter, State.excl_congr hsame.dig hsame.len,
      State.countBelow_congr hsame.dig, State.setIdx_idx, hidx]
    exact hcounters d
  · rw [State.placedFrom_scatter hscatter, State.setIdx_idx, hidx] at hfrom
    have hkey : (u.setIdx (s.idx - 1)).key i = s.key i := State.key_congr (t := u.setIdx _) hsrc hsel hdraws i
    have hdst : (u.setIdx (s.idx - 1)).dst = s.dst := congrArg (!·) hsel
    rw [State.rank_congr hsame.dig hsame.len, hkey, hdst]
    exact hplaced i hfrom (hsame.len ▸ hlt)

theorem InPass.advance_scatterEnd (h : InPass s) (hp : s.phase = phaseScatter) (hi : s.idx.toNat = 0) :
    InPass s.advance := by
  rw [State.advance_scatterEnd hp hi]
  have hsame : SameDigits s (s.enterPhase phaseClear 0) := sameDigits rfl rfl rfl rfl rfl
  refine ⟨h.round_le, h.len_le, .inr (.inr (.inr ⟨rfl, by simp⟩)), fun d => ?_, fun _ i _ hlt => ?_⟩
  · rw [State.expectedCounter_clear (s := s.enterPhase _ _) rfl, State.excl_congr hsame.dig hsame.len]
    refine (h.counters d).trans ?_
    rw [State.expectedCounter_scatter hp, hi]
    simp
  · have hplaced := h.placed (.inl hp) i (by rw [State.placedFrom_scatter hp, hi]; exact Nat.zero_le i) hlt
    rw [State.rank_congr hsame.dig hsame.len]
    exact hplaced

theorem InPass.advance_zeroCounter (h : InPass s) (hp : s.phase = phaseClear) (hi : s.idx.toNat ≤ 255) :
    InPass s.advance := by
  have hidx : (s.idx + 1).toNat = s.idx.toNat + 1 := toNat_add_one (by omega)
  rw [State.advance_zeroCounter hp hi]
  have hsame : SameDigits s ((zeroCounter s.idx.toNat s).setIdx (s.idx + 1)) := sameDigits rfl rfl rfl rfl rfl
  have hrange : (s.idx + 1).toNat ≤ 256 := by omega
  refine ⟨h.round_le, h.len_le, .inr (.inr (.inr ⟨hp, hrange⟩)), fun d => ?_, fun _ i _ hlt => ?_⟩
  · rw [State.expectedCounter_clear (s := (zeroCounter _ s).setIdx _) hp, State.excl_congr hsame.dig hsame.len,
      State.setIdx_idx, hidx]
    refine (congrArg BitVec.toNat (counter_zeroCounter s hi d)).trans ?_
    by_cases hd : d.toNat = s.idx.toNat
    · rw [if_pos hd, if_pos (by omega)]; rfl
    · rw [if_neg hd, h.counters, State.expectedCounter_clear hp]
      simp only [show d.toNat < s.idx.toNat + 1 ↔ d.toNat < s.idx.toNat by omega]
  · have hplaced := h.placed (.inr hp) i (by rw [State.placedFrom_clear hp]; exact Nat.zero_le i) hlt
    rw [State.rank_congr hsame.dig hsame.len]
    exact hplaced

/-- The engine's step short of PassEnd keeps the state inside the pass. -/
theorem InPass.advance (h : InPass s) (hend : ¬ (s.phase = phaseClear ∧ s.idx.toNat = 256)) : InPass s.advance := by
  rcases h.cases with ⟨hp, hi⟩ | ⟨hp, hi⟩ | ⟨hp, h1, hi⟩ | ⟨hp, hi⟩ | ⟨hp, h0, hi⟩ | ⟨hp, hi⟩ | ⟨hp, hi⟩ | hlast
  · exact h.advance_countKey hp hi
  · exact h.advance_countEnd hp hi
  · exact h.advance_sumCounter hp h1 hi
  · exact h.advance_prefixEnd hp hi
  · exact h.advance_placeKey hp h0 hi
  · exact h.advance_scatterEnd hp hi
  · exact h.advance_zeroCounter hp hi
  · exact absurd hlast hend

end

end Sys2Proof.Machine
end

section
/-! PROOFS. The invariant (42_round_driver.md R101; 10_state.md R14, R20, R22; 60_exceptions.md R119): an idle or a
running state, each event's step, and the statements O29 to O32. -/

namespace Sys2Proof.Machine

/-! ## The invariant as an idle or a running state -/

/-- What holds whether a command runs or not: the parameters, LEN, the key memories and the error state. -/
structure Sound (s : State) : Prop where
  capacity : s.cfg.wf
  len_le : s.len.toNat ≤ s.cfg.nmax.toNat
  buf_wf : ∀ b, (s.buf b).wf
  buf_lt : ∀ b, ∀ e ∈ s.buf b, e.1 < s.cfg.nmax.toNat
  err_none : s.err = false → s.errcode = 0
  errcode_le : s.errcode.toNat ≤ 6
  no_fault : s.fault = false ∧ s.fcode = 0
  round_le : s.round.toNat ≤ 4

/-- No command runs: the sequencer is at rest and the counters are 0 (R14, R101). -/
structure Resting (s : State) : Prop where
  busy : s.busy = false
  phase : s.phase = phaseIdle
  idx : s.idx = 0
  zero : s.countersZero

/-- A command runs (R101). -/
structure Running (s : State) : Prop where
  busy : s.busy = true
  done : s.done = false
  alternation : s.single = false → s.srcsel = decide (s.round.toNat % 2 = 1)
  pass : InPass s

theorem Inv.sound {s : State} (h : Inv s) : Sound s :=
  ⟨h.capacity, h.len_le, h.buf_wf, h.buf_lt, h.err_none, h.errcode_le, h.no_fault, h.round_le⟩

theorem Inv.isResting {s : State} (h : Inv s) (hidle : s.busy = false) : Resting s := by
  have hp := h.phase_idle hidle
  obtain ⟨hidx, hzero⟩ := h.idle hp
  exact ⟨hidle, hp, hidx, hzero⟩

theorem Inv.isRunning {s : State} (h : Inv s) (hbusy : s.busy = true) : Running s := by
  obtain ⟨hround, -, hdone⟩ := h.running hbusy
  refine ⟨hbusy, hdone, h.alternation hbusy, hround, h.len_le, ?_, h.counters, h.placed⟩
  rcases h.busy_iff.mp hbusy with hp | hp | hp | hp
  · exact .inl ⟨hp, h.idx_count hp⟩
  · exact .inr (.inl ⟨hp, h.idx_prefix hp⟩)
  · exact .inr (.inr (.inl ⟨hp, h.idx_scatter hp⟩))
  · exact .inr (.inr (.inr ⟨hp, h.idx_clear hp⟩))

theorem Inv.of_resting {s : State} (h : Sound s) (hr : Resting s) : Inv s := by
  obtain ⟨hidle, hp, hidx, hzero⟩ := hr
  obtain ⟨hcap, hlen, hwf, hlt, herr, hcode, hfault, hround⟩ := h
  have notBusy : ∀ {P : Prop}, s.busy = true → P := fun hb => by simp [hidle] at hb
  have notPhase : ∀ {P : Prop} {p : BitVec 3}, p ≠ phaseIdle → s.phase = p → P :=
    fun hne hp' => absurd (hp'.symm.trans hp) hne
  exact
    { busy_iff := ⟨fun hb => notBusy hb, fun hp' => by simp [hp] at hp'⟩
      running := fun hb => notBusy hb
      idle := fun _ => ⟨hidx, hzero⟩
      idx_count := notPhase (by decide)
      idx_prefix := notPhase (by decide)
      idx_scatter := notPhase (by decide)
      idx_clear := notPhase (by decide)
      alternation := fun hb => notBusy hb
      round_le := hround
      round_four := fun _ => hp
      done_idle := fun _ => hidle
      fault_idle := fun _ => hidle
      capacity := hcap
      len_le := hlen
      buf_wf := hwf
      buf_lt := hlt
      phase_idle := fun _ => hp
      err_none := herr
      errcode_le := hcode
      no_fault := hfault
      counters := fun d => by rw [hzero d, State.expectedCounter_idle hp]; rfl
      placed := fun hp' => by simp [hp] at hp' }

theorem Inv.of_running {s : State} (h : Sound s) (hr : Running s) : Inv s := by
  obtain ⟨hbusy, hdone, halt, hpass⟩ := hr
  obtain ⟨hcap, hlen, hwf, hlt, herr, hcode, hfault, hround⟩ := h
  have hphase : s.phase = phaseCount ∨ s.phase = phasePrefixSum ∨ s.phase = phaseScatter ∨ s.phase = phaseClear :=
    hpass.range.imp And.left (Or.imp And.left (Or.imp And.left And.left))
  have notIdle : ∀ {P : Prop}, s.phase = phaseIdle → P := fun hp => by simp [hp] at hphase
  have range : s.inRange := hpass.range
  exact
    { busy_iff := ⟨fun _ => hphase, fun _ => hbusy⟩
      running := fun _ => ⟨hpass.round_le, hfault.1, hdone⟩
      idle := fun hp => notIdle hp
      idx_count := fun hp => by simpa [State.inRange, hp] using range
      idx_prefix := fun hp => by simpa [State.inRange, hp] using range
      idx_scatter := fun hp => by simpa [State.inRange, hp] using range
      idx_clear := fun hp => by simpa [State.inRange, hp] using range
      alternation := fun _ => halt
      round_le := hround
      round_four := fun h4 => by have := hpass.round_le; rw [h4] at this; simp at this
      done_idle := fun hd => by simp [hdone] at hd
      fault_idle := fun hf => by simp [hfault.1] at hf
      capacity := hcap
      len_le := hlen
      buf_wf := hwf
      buf_lt := hlt
      phase_idle := fun hb => by simp [hbusy] at hb
      err_none := herr
      errcode_le := hcode
      no_fault := hfault
      counters := hpass.counters
      placed := hpass.placed }

/-! ## Pass entry -/

/-- A state in COUNT at IDX = 0 with zero counters is inside a pass. -/
theorem InPass.of_entry {s : State} (hr : s.round.toNat ≤ 3) (hl : s.len.toNat ≤ s.cfg.nmax.toNat)
    (hp : s.phase = phaseCount) (hi : s.idx = 0) (hz : s.countersZero) : InPass s := by
  refine ⟨hr, hl, .inl ⟨hp, by simp [hi]⟩, fun d => ?_, fun hp' => ?_⟩
  · rw [hz d, State.expectedCounter_count hp, hi]; rfl
  · simp [hp] at hp'

theorem InPass.of_atPassEntry {s : State} (h : AtPassEntry s) : InPass s :=
  InPass.of_entry h.round h.len_le h.phase h.idx h.zero

/-! ## The engine's step under the invariant -/

/-- At its end a pass is the command's last, or one of the first three of a SORT (R99). -/
theorem InPass.last_or_more {s : State} (h : InPass s) :
    (s.single = true ∨ s.round = 3) ∨ (s.single = false ∧ s.round.toNat < 3) := by
  have hr := h.round_le
  by_cases h3 : s.round = 3
  · exact .inl (.inr h3)
  · have hne : s.round.toNat ≠ 3 := fun h => h3 (BitVec.eq_of_toNat_eq h)
    cases hs : s.single with
    | true => exact .inl (.inl rfl)
    | false => exact .inr ⟨rfl, by omega⟩

/-- The last step of a command's last pass completes it. -/
theorem State.advance_completes {s : State} (hp : s.phase = phaseClear) (hi : s.idx.toNat = 256)
    (hlast : s.single = true ∨ s.round = 3) :
    s.advance = { s with
      round := s.round + 1, srcsel := !s.srcsel, idx := 0, phase := phaseIdle, busy := false, done := true } :=
  (State.advance_clearEnd hp hi).trans (passEnd_completes hlast)

/-- The last step of an earlier pass of a SORT starts the next: its counters are 0 and its ROUND is below 3. -/
theorem InPass.advance_nextRound {s : State} (h : InPass s) (hp : s.phase = phaseClear) (hi : s.idx.toNat = 256)
    (hmore : s.single = false ∧ s.round.toNat < 3) :
    s.advance = { s with round := s.round + 1, srcsel := !s.srcsel, idx := 0, phase := phaseCount } := by
  obtain ⟨hsort, hlt⟩ := hmore
  have hne : s.round ≠ 3 := fun h3 => by rw [h3] at hlt; exact absurd hlt (by decide)
  exact (State.advance_clearEnd hp hi).trans
    (passEnd_nextRound hsort hne fun _ => ⟨hlt, h.countersZero_of_clearEnd hp hi⟩)

theorem toNat_round_add_one {r : BitVec 3} (h : r.toNat ≤ 3) : (r + 1).toNat = r.toNat + 1 :=
  BitVec.toNat_add_of_lt (show r.toNat + 1 < 2 ^ 3 by omega)

/-- The next round of a SORT reads the memory the last one wrote. -/
theorem alternation_succ {r : BitVec 3} (h : r.toNat ≤ 3) {x : Bool} (hx : x = decide (r.toNat % 2 = 1)) :
    (!x) = decide ((r + 1).toNat % 2 = 1) := by
  rw [toNat_round_add_one h, hx, ← decide_not]
  exact decide_eq_decide.mpr (by omega)

/-- SCATTER's data operation keeps the canonical form and the range of the key memories. -/
theorem buf_placeKey {s : State} {i : Nat} (hwf : ∀ b, (s.buf b).wf) (hlt : ∀ b, ∀ e ∈ s.buf b, e.1 < s.cfg.nmax.toNat)
    (hi : s.storeIndex i < s.cfg.nmax.toNat) (b : Bool) :
    ((placeKey i s).buf b).wf ∧ ∀ e ∈ (placeKey i s).buf b, e.1 < s.cfg.nmax.toNat := by
  have hput : ((s.setCounter (s.dig i) (s.counter (s.dig i) - 1)).writeWord s.dst (s.storeIndex i) (s.key i)).buf b =
      if b = s.dst then Memory.put (s.buf s.dst) (s.storeIndex i) (s.key i) else s.buf b :=
    State.buf_writeWord _ _ _ _ _
  rw [placeKey, hput]
  split
  · exact ⟨Memory.put_wf (hwf _) _ _, fun e he => (Memory.mem_put he).elim (fun h => h ▸ hi) (hlt _ e)⟩
  · exact ⟨hwf b, hlt b⟩

/-- PHASE and IDX after a step of a pass short of its end (R100): they depend on PHASE, IDX and LEN only. -/
def State.nextPosition (s : State) : BitVec 3 × Word :=
  if s.phase = phaseCount then (if s.idx.toNat < s.len.toNat then (phaseCount, s.idx + 1) else (phasePrefixSum, 1))
  else if s.phase = phasePrefixSum then
    (if s.idx.toNat ≤ 255 then (phasePrefixSum, s.idx + 1) else (phaseScatter, s.len))
  else if s.phase = phaseScatter then (if 0 < s.idx.toNat then (phaseScatter, s.idx - 1) else (phaseClear, 0))
  else (phaseClear, s.idx + 1)

/-- What a step of a pass short of its end writes: the key memories, the counters, PHASE and IDX. -/
theorem InPass.advance_frame {s : State} (h : InPass s) (hend : ¬ (s.phase = phaseClear ∧ s.idx.toNat = 256)) :
    ∃ b0 b1 c, s.advance =
      { s with buf0 := b0, buf1 := b1, cnt := c, phase := s.nextPosition.1, idx := s.nextPosition.2 } := by
  rcases h.cases with ⟨hp, hi⟩ | ⟨hp, hi⟩ | ⟨hp, -, hi⟩ | ⟨hp, hi⟩ | ⟨hp, h0, -⟩ | ⟨hp, hi⟩ | ⟨hp, hi⟩ | hlast
  · have hpos : s.nextPosition = (s.phase, s.idx + 1) := by simp [State.nextPosition, hp, hi]
    rw [State.advance_countKey hp hi, hpos]; exact ⟨_, _, _, rfl⟩
  · have hpos : s.nextPosition = (phasePrefixSum, 1) := by simp [State.nextPosition, hp, hi]
    rw [State.advance_countEnd hp hi, hpos]; exact ⟨_, _, _, rfl⟩
  · have hpos : s.nextPosition = (s.phase, s.idx + 1) := by simp [State.nextPosition, hp, hi]
    rw [State.advance_sumCounter hp hi, hpos]; exact ⟨_, _, _, rfl⟩
  · have hpos : s.nextPosition = (phaseScatter, s.len) := by simp [State.nextPosition, hp, hi]
    rw [State.advance_prefixEnd hp hi, hpos]; exact ⟨_, _, _, rfl⟩
  · have hpos : s.nextPosition = (s.phase, s.idx - 1) := by simp [State.nextPosition, hp, h0]
    rw [State.advance_placeKey hp h0, hpos]
    exact ⟨(placeKey _ s).buf0, (placeKey _ s).buf1, (placeKey _ s).cnt,
      congrArg (State.setIdx · (s.idx - 1)) (placeKey_frame (s.idx.toNat - 1) s)⟩
  · have hpos : s.nextPosition = (phaseClear, 0) := by simp [State.nextPosition, hp, hi]
    rw [State.advance_scatterEnd hp hi, hpos]; exact ⟨_, _, _, rfl⟩
  · have hpos : s.nextPosition = (s.phase, s.idx + 1) := by simp [State.nextPosition, hp]
    rw [State.advance_zeroCounter hp hi, hpos]; exact ⟨_, _, _, rfl⟩
  · exact absurd hlast hend

/-- Every step of a pass keeps the key memories canonical and inside NMAX. -/
theorem InPass.advance_buf {s : State} (h : InPass s) (hs : Sound s) (b : Bool) :
    (s.advance.buf b).wf ∧ ∀ e ∈ s.advance.buf b, e.1 < s.cfg.nmax.toNat := by
  have same : ∀ t : State, t.buf b = s.buf b → (t.buf b).wf ∧ ∀ e ∈ t.buf b, e.1 < s.cfg.nmax.toNat :=
    fun t ht => ht ▸ ⟨hs.buf_wf b, hs.buf_lt b⟩
  rcases h.cases with ⟨hp, hi⟩ | ⟨hp, hi⟩ | ⟨hp, -, hi⟩ | ⟨hp, hi⟩ | ⟨hp, h0, hi⟩ | ⟨hp, hi⟩ | ⟨hp, hi⟩ | ⟨hp, hi⟩
  · rw [State.advance_countKey hp hi]; exact same _ rfl
  · rw [State.advance_countEnd hp hi]; exact same _ rfl
  · rw [State.advance_sumCounter hp hi]; exact same _ rfl
  · rw [State.advance_prefixEnd hp hi]; exact same _ rfl
  · rw [State.advance_placeKey hp h0]
    refine buf_placeKey hs.buf_wf hs.buf_lt ?_ b
    have hrank := s.rank_lt_len (i := s.idx.toNat - 1) (by omega)
    have := hs.len_le
    rw [h.storeIndex_eq_rank hp h0]; omega
  · rw [State.advance_scatterEnd hp hi]; exact same _ rfl
  · rw [State.advance_zeroCounter hp hi]; exact same _ rfl
  · rcases h.last_or_more with hlast | hmore
    · rw [State.advance_completes hp hi hlast]; exact same _ rfl
    · rw [h.advance_nextRound hp hi hmore]; exact same _ rfl

/-- The engine's step keeps the invariant. -/
theorem Inv.advance {s : State} (h : Inv s) (hbusy : s.busy = true) : Inv s.advance := by
  have hs := h.sound
  obtain ⟨-, hdone, halt, hpass⟩ := h.isRunning hbusy
  have hbuf := hpass.advance_buf hs
  have hwf := fun b => (hbuf b).1
  have hlt := fun b => (hbuf b).2
  by_cases hend : s.phase = phaseClear ∧ s.idx.toNat = 256
  · obtain ⟨hp, hi⟩ := hend
    have hzero := hpass.countersZero_of_clearEnd hp hi
    have hround : (s.round + 1).toNat ≤ 4 := by
      rw [toNat_round_add_one hpass.round_le]; have := hpass.round_le; omega
    rcases hpass.last_or_more with hlast | hmore
    · rw [State.advance_completes hp hi hlast] at hwf hlt ⊢
      exact .of_resting ⟨hs.capacity, hs.len_le, hwf, hlt, hs.err_none, hs.errcode_le, hs.no_fault, hround⟩
        ⟨rfl, rfl, rfl, hzero⟩
    · have hround' : (s.round + 1).toNat ≤ 3 := by rw [toNat_round_add_one hpass.round_le]; exact hmore.2
      rw [hpass.advance_nextRound hp hi hmore] at hwf hlt ⊢
      exact .of_running ⟨hs.capacity, hs.len_le, hwf, hlt, hs.err_none, hs.errcode_le, hs.no_fault, hround⟩
        ⟨hbusy, hdone, fun _ => alternation_succ hpass.round_le (halt hmore.1),
          InPass.of_entry hround' hs.len_le rfl rfl hzero⟩
  · have hnext := hpass.advance hend
    obtain ⟨b0, b1, c, heq⟩ := hpass.advance_frame hend
    rw [heq] at hwf hlt hnext ⊢
    exact .of_running ⟨hs.capacity, hs.len_le, hwf, hlt, hs.err_none, hs.errcode_le, hs.no_fault, hs.round_le⟩
      ⟨hbusy, hdone, halt, hnext⟩

/-! ## The host's events under the invariant -/

/-- The error state, the schedule and the returned values are nothing to the invariant but for R22 and R111. -/
theorem Inv.withHostSide {s : State} (h : Inv s) {e : Bool} {c : BitVec 4} (hnone : e = false → c = 0)
    (hle : c.toNat ≤ 6) (es : List Event) (rs : List Word) : Inv (s.withHostSide e c es rs) := by
  have hs := h.sound
  have hsound : Sound (s.withHostSide e c es rs) :=
    ⟨hs.capacity, hs.len_le, hs.buf_wf, hs.buf_lt, hnone, hle, hs.no_fault, hs.round_le⟩
  cases hb : s.busy with
  | false =>
    obtain ⟨hidle, hp, hi, hz⟩ := h.isResting hb
    exact .of_resting hsound ⟨hidle, hp, hi, hz⟩
  | true =>
    obtain ⟨hbusy, hdone, halt, hpass⟩ := h.isRunning hb
    exact .of_running hsound ⟨hbusy, hdone, halt, hpass.round_le, hpass.len_le, hpass.range, hpass.counters,
      hpass.placed⟩

theorem Inv.setSchedule {s : State} (h : Inv s) (es : List Event) : Inv (s.setSchedule es) :=
  h.withHostSide h.err_none h.errcode_le es s.returned

theorem Inv.raiseErr {s : State} (h : Inv s) {c : BitVec 4} (hle : c.toNat ≤ 6) : Inv (s.raiseErr c) :=
  h.withHostSide (fun he => by cases he) hle s.schedule s.returned

/-- Acceptance under the invariant starts a pass (R62). -/
theorem Inv.accept {s : State} (h : Inv s) (hidle : s.busy = false) {single : Bool} {r : BitVec 3} {src : Bool}
    (hr : r.toNat ≤ 3) (halt : single = false → src = decide (r.toNat % 2 = 1)) : Inv (accept single r src s) := by
  have hs := h.sound
  have hzero := (h.isResting hidle).zero
  rw [accept_ok hr fun _ => hzero]
  exact .of_running ⟨hs.capacity, hs.len_le, hs.buf_wf, hs.buf_lt, hs.err_none, hs.errcode_le, hs.no_fault,
      show r.toNat ≤ 4 by omega⟩
    ⟨rfl, rfl, halt, InPass.of_entry hr hs.len_le rfl rfl hzero⟩

theorem Inv.issue {s : State} (h : Inv s) (hidle : s.busy = false) (w : Word) : Inv (issue w s) := by
  rcases issue_cases w s with ⟨-, hi⟩ | ⟨-, -, hi⟩ | ⟨-, -, hi⟩ | ⟨-, r, src, hr, -, hi⟩ <;> rw [hi]
  · exact h.raiseErr (by decide)
  · exact h.raiseErr (by decide)
  · exact h.accept hidle (by decide) (fun _ => rfl)
  · exact h.accept hidle hr (fun hc => by cases hc)

/-- A status write can clear DONE and the error state, which the invariant allows in every state (R36). -/
theorem Inv.statusWrite {s : State} (h : Inv s) (v : Word) : Inv (s.statusWrite v) := by
  have hs := h.sound
  rw [State.statusWrite_eq]
  have hsound : Sound { s with
      done := if v.getLsbD 1 then false else s.done, err := if v.getLsbD 2 then false else s.err,
      errcode := if v.getLsbD 2 then 0 else s.errcode } := by
    refine ⟨hs.capacity, hs.len_le, hs.buf_wf, hs.buf_lt, ?_, ?_, hs.no_fault, hs.round_le⟩
    · cases v.getLsbD 2
      · exact hs.err_none
      · exact fun _ => rfl
    · cases v.getLsbD 2
      · exact hs.errcode_le
      · exact Nat.zero_le 6
  rcases Bool.eq_false_or_eq_true s.busy with hb | hb
  · obtain ⟨hbusy, hdone, halt, hpass⟩ := h.isRunning hb
    exact .of_running hsound ⟨hbusy, by simp [hdone], halt, hpass.round_le, hpass.len_le, hpass.range,
      hpass.counters, hpass.placed⟩
  · obtain ⟨hidle, hp, hi, hz⟩ := h.isResting hb
    exact .of_resting hsound ⟨hidle, hp, hi, hz⟩

/-- A host write keeps the invariant: the writes that pass the checks of R32 are inside its bounds. -/
theorem Inv.hostWrite {s : State} (h : Inv s) (ha : HostAddr) (v : Word) : Inv (hostWrite ha v s) := by
  have hs := h.sound
  rcases hostWrite_cases ha v s with ⟨c, -, hc, hw⟩ | ⟨-, hw⟩ | ⟨-, hidle, hv, hw⟩ | ⟨-, hidle, hw⟩ |
    ⟨b, i, -, hidle, hi, hw⟩ <;> rw [hw]
  · exact h.raiseErr (by omega)
  · exact h.statusWrite v
  · obtain ⟨hidle, hp, hi, hz⟩ := h.isResting hidle
    exact .of_resting ⟨hs.capacity, hv, hs.buf_wf, hs.buf_lt, hs.err_none, hs.errcode_le, hs.no_fault, hs.round_le⟩
      ⟨hidle, hp, hi, hz⟩
  · exact h.issue hidle v
  · obtain ⟨hidle, hp, hidx, hz⟩ := h.isResting hidle
    have hbuf : ∀ b', ((s.writeWord b i.toNat v).buf b').wf ∧
        ∀ e ∈ (s.writeWord b i.toNat v).buf b', e.1 < s.cfg.nmax.toNat := by
      intro b'
      rw [State.buf_writeWord]
      split
      · exact ⟨Memory.put_wf (hs.buf_wf b) _ _, fun e he => (Memory.mem_put he).elim (fun h => h ▸ hi) (hs.buf_lt b e)⟩
      · exact ⟨hs.buf_wf b', hs.buf_lt b'⟩
    have hframe := s.writeWord_frame b i.toNat v
    have hwf := fun b' => (hbuf b').1
    have hlt := fun b' => (hbuf b').2
    rw [hframe] at hwf hlt ⊢
    exact .of_resting ⟨hs.capacity, hs.len_le, hwf, hlt, hs.err_none, hs.errcode_le, hs.no_fault, hs.round_le⟩
      ⟨hidle, hp, hidx, hz⟩

theorem Inv.readEvent {s : State} (h : Inv s) (ha : HostAddr) : Inv (readEvent ha s) := by
  unfold Sys2Proof.Machine.readEvent
  rcases hostRead_cases ha s with hr | ⟨c, hc, hr⟩
  · rw [hr]; exact h.withHostSide h.err_none h.errcode_le _ _
  · have hle : c.toNat ≤ 6 := by rcases hc with rfl | rfl <;> decide
    rw [hr]; exact h.withHostSide (fun he => by cases he) hle _ _

/-- The state after a reset, with any parameters, contents, schedule and returned values. -/
theorem inv_reset {c : Config} (hc : c.wf) (k : Nat) (es : List Event) (rs : List Word) :
    Inv { State.resetWith c with draws := k, schedule := es, returned := rs } :=
  .of_resting
    ⟨hc, Nat.zero_le _, fun b => (by cases b <;> exact List.Pairwise.nil), fun b e he => (by cases b <;> cases he),
      fun _ => rfl, Nat.zero_le 6, ⟨rfl, rfl⟩, Nat.zero_le 4⟩
    ⟨rfl, rfl, rfl, countersZero_of_replicate rfl⟩

/-! ## Whole steps -/

/-- The engine's turn inside a pass is `advance`. -/
theorem step_engine_of_inPass {s : State} (h : InPass s.afterTurn) (hbusy : s.busy = true)
    (hnext : s.engineNext = true) : step s = .next s.afterTurn.advance := by
  obtain ⟨i, hd, hexec⟩ := h.exec_eq
  have hphase : s.afterTurn.phase = s.phase := by
    obtain ⟨rest, hturn⟩ := s.afterTurn_eq_setSchedule
    rw [hturn]; rfl
  rw [step_micro hnext hbusy (hphase ▸ hd), hexec]

theorem Inv.afterTurn {s : State} (h : Inv s) : Inv s.afterTurn := by
  obtain ⟨rest, hturn⟩ := s.afterTurn_eq_setSchedule
  exact hturn ▸ h.setSchedule rest

/-- A running state is one after the event of its turn is used up. -/
theorem Inv.running_afterTurn {s : State} (h : Inv s) (hbusy : s.busy = true) : Running s.afterTurn := by
  obtain ⟨rest, hturn⟩ := s.afterTurn_eq_setSchedule
  exact h.afterTurn.isRunning (by rw [hturn]; exact hbusy)

theorem Inv.step_engine {s : State} (h : Inv s) (hbusy : s.busy = true) (hnext : s.engineNext = true) :
    step s = .next s.afterTurn.advance :=
  step_engine_of_inPass (h.running_afterTurn hbusy).pass hbusy hnext

/-- Under the invariant every step goes on, and to a state of the invariant. -/
theorem Inv.step_next {s : State} (h : Inv s) : ∃ t, step s = .next t ∧ Inv t := by
  have engine : s.engineNext = true → s.busy = true → ∃ t, step s = .next t ∧ Inv t := fun hnext hbusy =>
    ⟨_, h.step_engine hbusy hnext, h.afterTurn.advance (h.running_afterTurn hbusy).busy⟩
  have hfalse : s.busy ≠ true → s.busy = false := fun hb => by simpa using hb
  cases hs : s.schedule with
  | nil =>
    by_cases hb : s.busy = true
    · exact engine (by rw [State.engineNext, hs]) hb
    · exact ⟨s, step_alone_idle hs (hfalse hb), h⟩
  | cons e rest =>
    cases e with
    | engine =>
      by_cases hb : s.busy = true
      · exact engine (by rw [State.engineNext, hs]) hb
      · exact ⟨_, step_turn_idle hs (hfalse hb), h.setSchedule rest⟩
    | wait =>
      by_cases hb : s.busy = true
      · exact engine (by rw [State.engineNext, hs]) hb
      · exact ⟨_, step_wait_idle hs (hfalse hb), (h.setSchedule rest).readEvent _⟩
    | write ha v => exact ⟨_, step_write hs, (h.setSchedule rest).hostWrite ha v⟩
    | read ha => exact ⟨_, step_read hs, (h.setSchedule rest).readEvent ha⟩
    | reset => exact ⟨_, step_reset hs, inv_reset h.capacity _ _ _⟩

/-- Every reachable state meets the invariant: the resets start in it and every step keeps it. -/
theorem Reachable.inv {s : State} (h : Reachable s) : Inv s := by
  induction h with
  | start c k evs hc => exact inv_reset hc k evs []
  | step s t _ hstep ih =>
    obtain ⟨t', hstep', ht'⟩ := ih.step_next
    obtain rfl : t' = t := by rw [hstep'] at hstep; cases hstep; rfl
    exact ht'

/-! ## The statements -/

/-- Settles O29: `inv_reset`, the base of the induction. -/
theorem invariantHoldsAfterReset : Obligations.InvariantHoldsAfterReset :=
  ⟨inv_reset (c := Config.initial) (by decide) 0 [] [], fun _ k evs hc => inv_reset hc k evs []⟩

/-- Settles O30: the step's one outcome is the one `Inv.step_next` gives. -/
theorem stepKeepsTheInvariant : Obligations.StepKeepsTheInvariant := by
  intro s t h hstep
  obtain ⟨t', hstep', ht'⟩ := h.step_next
  obtain rfl : t' = t := by rw [hstep'] at hstep; cases hstep; rfl
  exact ht'

/-- Settles O31: a host access always answers a state, and the engine's turn goes on by `InPass.exec_eq`. -/
theorem invariantStatesNeverFault : Obligations.InvariantStatesNeverFault := by
  intro s h
  obtain ⟨t, hstep, -⟩ := h.step_next
  exact ⟨t, hstep⟩

/-- Settles O32: what the invariant says of a reachable state. -/
theorem reachableStatesMeetTheSequencerInvariants : Obligations.ReachableStatesMeetTheSequencerInvariants := by
  intro s hreach
  have h := hreach.inv
  obtain ⟨t, hstep, -⟩ := h.step_next
  refine ⟨h.toSequencerInv, ?_, h.no_fault.1, h.no_fault.2, h.len_le, ?_, h.err_none, t, hstep⟩
  · rintro (hp | ⟨hp, hi⟩)
    · exact (h.idle hp).2
    · intro d
      apply BitVec.eq_of_toNat_eq
      rw [h.counters, State.expectedCounter_count hp, hi]; rfl
  · cases hb : s.busy with
    | false => rw [h.phase_idle hb]; decide
    | true => rcases h.busy_iff.mp hb with hp | hp | hp | hp <;> rw [hp] <;> decide

end Sys2Proof.Machine
end

section
/-! PROOFS. What the engine's step does not depend on, and how far it brings the command (42_round_driver.md R102 to
R104; 60_exceptions.md R119; 70_reset_and_hazards.md R141): the statements O33, O39, O51 and O52. -/

namespace Sys2Proof.Machine

/-! ## The two builds (R119) -/

/-- `s` in the build with ASSERT_EN = `e`. -/
def State.withAssertEn (s : State) (e : Bool) : State := { s with cfg := { s.cfg with assertEn := e } }

/-- The invariant does not speak of ASSERT_EN. -/
theorem Inv.withAssertEn {s : State} (h : Inv s) (e : Bool) : Inv (s.withAssertEn e) := by
  have hs := h.sound
  have hsound : Sound (s.withAssertEn e) :=
    ⟨hs.capacity, hs.len_le, hs.buf_wf, hs.buf_lt, hs.err_none, hs.errcode_le, hs.no_fault, hs.round_le⟩
  rcases Bool.eq_false_or_eq_true s.busy with hb | hb
  · obtain ⟨hbusy, hdone, halt, hpass⟩ := h.isRunning hb
    exact .of_running hsound ⟨hbusy, hdone, halt, hpass.round_le, hpass.len_le, hpass.range, hpass.counters,
      hpass.placed⟩
  · obtain ⟨hidle, hp, hi, hz⟩ := h.isResting hb
    exact .of_resting hsound ⟨hidle, hp, hi, hz⟩

theorem writeWord_withAssertEn (s : State) (e b : Bool) (i : Nat) (v : Word) :
    (s.withAssertEn e).writeWord b i v = (s.writeWord b i v).withAssertEn e := by
  cases b <;> rfl

theorem placeKey_withAssertEn (s : State) (e : Bool) (i : Nat) :
    placeKey i (s.withAssertEn e) = (placeKey i s).withAssertEn e :=
  writeWord_withAssertEn (s.setCounter (s.dig i) (s.counter (s.dig i) - 1)) e s.dst (s.storeIndex i) (s.key i)

/-- Inside a pass the assertions of the next pass entry hold, so that the step is the same in both builds. -/
theorem InPass.advance_withAssertEn {s : State} (h : InPass s) (e : Bool) :
    (s.withAssertEn e).advance = s.advance.withAssertEn e := by
  have h' : InPass (s.withAssertEn e) := ⟨h.round_le, h.len_le, h.range, h.counters, h.placed⟩
  rcases h.cases with ⟨hp, hi⟩ | ⟨hp, hi⟩ | ⟨hp, -, hi⟩ | ⟨hp, hi⟩ | ⟨hp, h0, hi⟩ | ⟨hp, hi⟩ | ⟨hp, hi⟩ | ⟨hp, hi⟩
  · rw [State.advance_countKey hp hi]; exact State.advance_countKey (s := s.withAssertEn e) hp hi
  · rw [State.advance_countEnd hp hi]; exact State.advance_countEnd (s := s.withAssertEn e) hp hi
  · rw [State.advance_sumCounter hp hi]; exact State.advance_sumCounter (s := s.withAssertEn e) hp hi
  · rw [State.advance_prefixEnd hp hi]; exact State.advance_prefixEnd (s := s.withAssertEn e) hp hi
  · rw [State.advance_placeKey hp h0]
    exact (State.advance_placeKey (s := s.withAssertEn e) hp h0).trans
      (congrArg (State.setIdx · (s.idx - 1)) (placeKey_withAssertEn s e _))
  · rw [State.advance_scatterEnd hp hi]; exact State.advance_scatterEnd (s := s.withAssertEn e) hp hi
  · rw [State.advance_zeroCounter hp hi]; exact State.advance_zeroCounter (s := s.withAssertEn e) hp hi
  · rcases h.last_or_more with hlast | hmore
    · rw [State.advance_completes hp hi hlast]; exact State.advance_completes (s := s.withAssertEn e) hp hi hlast
    · rw [h.advance_nextRound hp hi hmore]; exact h'.advance_nextRound hp hi hmore

theorem issue_sort {w : Word} {s : State} (hf : s.fault = false) (hd : decodeCommand w = some .sort) :
    issue w s = accept false 0 false s := by
  simp [issue, hf, hd]

theorem issue_pass {w : Word} {s : State} {r : BitVec 3} {src : Bool} (hf : s.fault = false)
    (hd : decodeCommand w = some (.pass r src)) : issue w s = accept true r src s := by
  simp [issue, hf, hd]

/-- With the counters at 0 acceptance is the same in both builds. -/
theorem accept_withAssertEn {s : State} (hz : s.countersZero) {single : Bool} {r : BitVec 3} (hr : r.toNat ≤ 3)
    {src : Bool} (e : Bool) : accept single r src (s.withAssertEn e) = (accept single r src s).withAssertEn e := by
  rw [accept_ok hr fun _ => hz]
  exact accept_ok (s := s.withAssertEn e) hr fun _ => hz

theorem issue_withAssertEn {s : State} (hz : s.countersZero) (w : Word) (e : Bool) :
    issue w (s.withAssertEn e) = (issue w s).withAssertEn e := by
  rcases issue_cases w s with ⟨hf, hi⟩ | ⟨hf, hd, hi⟩ | ⟨hf, hd, hi⟩ | ⟨hf, r, src, hr, hd, hi⟩ <;> rw [hi]
  · exact issue_faulted (s := s.withAssertEn e) hf w
  · exact issue_illegal (s := s.withAssertEn e) hf hd
  · exact (issue_sort (s := s.withAssertEn e) hf hd).trans (accept_withAssertEn hz (by decide) e)
  · exact (issue_pass (s := s.withAssertEn e) hf hd).trans (accept_withAssertEn hz hr e)

theorem lenWrite_withAssertEn (v : Word) (s : State) (e : Bool) :
    lenWrite v (s.withAssertEn e) = (lenWrite v s).withAssertEn e := by
  rcases Nat.lt_or_ge s.cfg.nmax.toNat v.toNat with hv | hv
  · rw [lenWrite_of_gt hv]; exact lenWrite_of_gt (s := s.withAssertEn e) hv
  · rw [lenWrite_of_le hv]; exact lenWrite_of_le (s := s.withAssertEn e) hv

theorem statusWrite_withAssertEn (v : Word) (s : State) (e : Bool) :
    (s.withAssertEn e).statusWrite v = (s.statusWrite v).withAssertEn e := by
  rw [State.statusWrite_eq, State.statusWrite_eq]; rfl

theorem Inv.hostWrite_withAssertEn {s : State} (h : Inv s) (ha : HostAddr) (v : Word) (e : Bool) :
    Machine.hostWrite ha v (s.withAssertEn e) = (Machine.hostWrite ha v s).withAssertEn e := by
  have hbad : (s.withAssertEn e).badAddress ha = s.badAddress ha := rfl
  have hbusy : (s.withAssertEn e).busy = s.busy := rfl
  simp only [Machine.hostWrite, hbad, hbusy, lenWrite_withAssertEn, statusWrite_withAssertEn, writeWord_withAssertEn]
  split
  · rfl
  split
  · rfl
  split
  · rfl
  split
  · rfl
  next hidle =>
  rw [issue_withAssertEn (h.isResting (by simpa using hidle)).zero]
  split
  · rfl
  split <;> rfl

theorem readEvent_withAssertEn (s : State) (ha : HostAddr) (e : Bool) :
    readEvent ha (s.withAssertEn e) = (readEvent ha s).withAssertEn e := by
  have hread : hostRead ha (s.withAssertEn e) = ((hostRead ha s).1, (hostRead ha s).2.withAssertEn e) := by
    have hbad : (s.withAssertEn e).badAddress ha = s.badAddress ha := rfl
    have hbusy : (s.withAssertEn e).busy = s.busy := rfl
    simp only [hostRead, hbad, hbusy]
    split
    · rfl
    split
    · rfl
    split
    · rfl
    split
    · rfl
    split
    · rfl
    split <;> rfl
  unfold readEvent
  rw [hread]; rfl

/-! ## The path (R103) -/

/-- Two states inside a pass with the same position, command, LEN and flags agree on them after the step. -/
theorem InPass.control_advance {s s' : State} (h : InPass s) (h' : InPass s') (hc : s.control = s'.control) :
    s.advance.control = s'.advance.control := by
  simp only [State.control, Prod.mk.injEq] at hc
  obtain ⟨hround, hphase, hidx, hlen, hsrc, hsingle, hbusy, hdone⟩ := hc
  by_cases hend : s.phase = phaseClear ∧ s.idx.toNat = 256
  · obtain ⟨hp, hi⟩ := hend
    have hp' : s'.phase = phaseClear := hphase ▸ hp
    have hi' : s'.idx.toNat = 256 := hidx ▸ hi
    rcases h.last_or_more with hlast | hmore
    · rw [State.advance_completes hp hi hlast, State.advance_completes hp' hi' (hsingle ▸ hround ▸ hlast)]
      simp [State.control, hround, hlen, hsrc, hsingle]
    · rw [h.advance_nextRound hp hi hmore, h'.advance_nextRound hp' hi' (hsingle ▸ hround ▸ hmore)]
      simp [State.control, hround, hlen, hsrc, hsingle, hbusy, hdone]
  · have hpos : s.nextPosition = s'.nextPosition := by simp only [State.nextPosition, hphase, hidx, hlen]
    obtain ⟨b0, b1, c, heq⟩ := h.advance_frame hend
    obtain ⟨b0', b1', c', heq'⟩ := h'.advance_frame (hphase ▸ hidx ▸ hend)
    rw [heq, heq']
    simp [State.control, hround, hlen, hsrc, hsingle, hbusy, hdone, hpos]

/-! ## Steps left (R141) -/

/-- The engine steps of a whole pass. -/
theorem State.passStepsLeft_entry {s : State} (hp : s.phase = phaseCount) (hi : s.idx = 0) :
    s.passStepsLeft = 2 * s.len.toNat + 515 := by
  simp [State.passStepsLeft, hp, hi]
  omega

/-- A position's step brings the end of the pass one step nearer. -/
theorem InPass.passStepsLeft_advance {s : State} (h : InPass s) (hend : ¬ (s.phase = phaseClear ∧ s.idx.toNat = 256)) :
    s.advance.passStepsLeft + 1 = s.passStepsLeft := by
  obtain ⟨b0, b1, c, heq⟩ := h.advance_frame hend
  have hlen := s.len.isLt
  rw [heq]
  rcases h.cases with ⟨hp, hi⟩ | ⟨hp, hi⟩ | ⟨hp, h1, hi⟩ | ⟨hp, hi⟩ | ⟨hp, h0, hi⟩ | ⟨hp, hi⟩ | ⟨hp, hi⟩ | hlast
  · have hidx : (s.idx + 1).toNat = s.idx.toNat + 1 := toNat_add_one (by omega)
    simp only [State.passStepsLeft, State.nextPosition, hp, hi, hidx, if_true]
    omega
  · simp [State.passStepsLeft, State.nextPosition, hp, hi]
    omega
  · have hidx : (s.idx + 1).toNat = s.idx.toNat + 1 := toNat_add_one (by omega)
    have hne : phasePrefixSum ≠ phaseCount := by decide
    simp only [State.passStepsLeft, State.nextPosition, hp, hi, hidx, if_neg hne, if_true]
    omega
  · simp [State.passStepsLeft, State.nextPosition, hp, hi]
    omega
  · have hidx : (s.idx - 1).toNat = s.idx.toNat - 1 := toNat_sub_one h0
    have hne : phaseScatter ≠ phaseCount ∧ phaseScatter ≠ phasePrefixSum := by decide
    simp only [State.passStepsLeft, State.nextPosition, hp, h0, hidx, if_neg hne.1, if_neg hne.2, if_true]
    omega
  · simp [State.passStepsLeft, State.nextPosition, hp, hi]
  · have hidx : (s.idx + 1).toNat = s.idx.toNat + 1 := toNat_add_one (by omega)
    have hne : phaseClear ≠ phaseCount ∧ phaseClear ≠ phasePrefixSum ∧ phaseClear ≠ phaseScatter := by decide
    simp only [State.passStepsLeft, State.nextPosition, hp, hidx, if_neg hne.1, if_neg hne.2.1, if_neg hne.2.2, if_true]
    omega
  · exact absurd hlast hend

/-- The steps of the passes still to come, given those of the pass at hand. -/
theorem State.stepsLeft_busy {s : State} (hbusy : s.busy = true) :
    s.stepsLeft = s.passStepsLeft + if s.single then 0 else (3 - s.round.toNat) * (2 * s.len.toNat + 515) := by
  simp [State.stepsLeft, hbusy]

/-- Every engine step of a running command brings its completion one step nearer. -/
theorem Running.stepsLeft_advance {s : State} (h : Running s) : s.advance.stepsLeft + 1 = s.stepsLeft := by
  obtain ⟨hbusy, -, -, hpass⟩ := h
  rw [State.stepsLeft_busy hbusy]
  by_cases hend : s.phase = phaseClear ∧ s.idx.toNat = 256
  · obtain ⟨hp, hi⟩ := hend
    have hone : s.passStepsLeft = 1 := by simp [State.passStepsLeft, hp, hi]
    rcases hpass.last_or_more with hlast | ⟨hsort, hlt⟩
    · rw [State.advance_completes hp hi hlast, hone]
      rcases hlast with hsingle | h3
      · simp [State.stepsLeft, hsingle]
      · simp [State.stepsLeft, h3]
    · obtain ⟨k, hk⟩ : ∃ k, 3 - s.round.toNat = k + 1 := ⟨2 - s.round.toNat, by omega⟩
      have hk' : 3 - (s.round + 1).toNat = k := by rw [toNat_round_add_one hpass.round_le]; omega
      have heq := hpass.advance_nextRound hp hi ⟨hsort, hlt⟩
      have hbusy' : s.advance.busy = true := by rw [heq]; exact hbusy
      rw [State.stepsLeft_busy hbusy', heq, State.passStepsLeft_entry rfl rfl, hone]
      simp only [hsort, Bool.false_eq_true, if_false, hk, hk', Nat.succ_mul]
      omega
  · have hstep := hpass.passStepsLeft_advance hend
    obtain ⟨b0, b1, c, heq⟩ := hpass.advance_frame hend
    have hbusy' : s.advance.busy = true := by rw [heq]; exact hbusy
    rw [State.stepsLeft_busy hbusy', ← hstep, heq]
    dsimp only
    omega

/-- An accepted command has all its passes left. -/
theorem stepsLeft_accept {s : State} (hz : s.countersZero) {single : Bool} {r : BitVec 3} (hr : r.toNat ≤ 3)
    (src : Bool) : (accept single r src s).stepsLeft =
      2 * s.len.toNat + 515 + if single then 0 else (3 - r.toNat) * (2 * s.len.toNat + 515) := by
  rw [accept_ok hr fun _ => hz, State.stepsLeft_busy rfl, State.passStepsLeft_entry rfl rfl]

/-! ## Running to completion (R104) -/

theorem runSteps_succ {s t : State} (h : step s = .next t) (k : Nat) : runSteps (k + 1) s = runSteps k t := by
  have hcore : Sys2Proof.core.step s = .next t := h
  simp only [runSteps, Host.Core.run, hcore]
  rfl

/-- With nothing scheduled the engine's turn uses nothing up. -/
theorem State.afterTurn_alone {s : State} (h : s.alone) : s.afterTurn = s := by
  simp only [State.afterTurn, h]

theorem State.engineNext_alone {s : State} (h : s.alone) : s.engineNext = true := by
  simp only [State.engineNext, h]

theorem InPass.step_alone {s : State} (h : InPass s) (hbusy : s.busy = true) (halone : s.alone) :
    step s = .next s.advance := by
  have hturn := State.afterTurn_alone halone
  rw [step_engine_of_inPass (hturn.symm ▸ h) hbusy (State.engineNext_alone halone), hturn]

/-- What stays the same along a running command, and what a completed one has come to (R68, R99). -/
structure CompletedFrom (s t : State) : Prop where
  schedule : t.schedule = s.schedule
  len : t.len = s.len
  err : t.err = s.err
  single : t.single = s.single
  running : t.busy = false → t.done = true ∧ (s.single = false → t.round = 4 ∧ t.srcsel = false)

theorem Running.advance_completedFrom {s : State} (h : Running s) : CompletedFrom s s.advance := by
  obtain ⟨hbusy, -, halt, hpass⟩ := h
  have notIdle : ∀ {P : Prop}, s.busy = false → P := fun hb => by simp [hbusy] at hb
  by_cases hend : s.phase = phaseClear ∧ s.idx.toNat = 256
  · obtain ⟨hp, hi⟩ := hend
    rcases hpass.last_or_more with hlast | hmore
    · rw [State.advance_completes hp hi hlast]
      refine ⟨rfl, rfl, rfl, rfl, fun _ => ⟨rfl, fun hsort => ?_⟩⟩
      have h3 : s.round = 3 := hlast.resolve_left (by simp [hsort])
      have hsrc := halt hsort
      rw [h3] at hsrc ⊢
      exact ⟨rfl, by rw [hsrc]; rfl⟩
    · rw [hpass.advance_nextRound hp hi hmore]
      exact ⟨rfl, rfl, rfl, rfl, notIdle⟩
  · obtain ⟨b0, b1, c, heq⟩ := hpass.advance_frame hend
    rw [heq]
    exact ⟨rfl, rfl, rfl, rfl, notIdle⟩

/-- By induction on the steps left: the engine alone runs a command to its end. -/
theorem Inv.run_stepsLeft (n : Nat) : ∀ {s : State}, Inv s → s.busy = true → s.alone → s.stepsLeft = n →
    ∃ t, runSteps n s = .next t ∧ Inv t ∧ t.busy = false ∧ CompletedFrom s t := by
  induction n with
  | zero =>
    intro s h hbusy _ hn
    have hcount := (h.isRunning hbusy).stepsLeft_advance
    omega
  | succ n ih =>
    intro s h hbusy halone hn
    have hrunning := h.isRunning hbusy
    have hcount := hrunning.stepsLeft_advance
    have hone := hrunning.advance_completedFrom
    have hnext := h.advance hbusy
    rw [runSteps_succ (hrunning.pass.step_alone hbusy halone)]
    rcases Bool.eq_false_or_eq_true s.advance.busy with hbusy' | hidle
    · obtain ⟨t, hrun, ht, hidle, hc⟩ := ih hnext hbusy' (hone.schedule.trans halone) (by omega)
      exact ⟨t, hrun, ht, hidle, hc.schedule.trans hone.schedule, hc.len.trans hone.len, hc.err.trans hone.err,
        hc.single.trans hone.single, fun hb => (hc.running hb).imp id fun hx hsort => hx (hone.single.trans hsort)⟩
    · have hzero : n = 0 := by
        have : s.advance.stepsLeft = 0 := by simp [State.stepsLeft, hidle]
        omega
      subst hzero
      exact ⟨s.advance, rfl, hnext, hidle, hone⟩

/-- An engine step of the invariant is the same in both builds. -/
theorem Inv.step_engine_withAssertEn {s t : State} {e : Bool} (h : Inv s) (hnext : s.engineNext = true)
    (hbusy : s.busy = true) (hstep : step s = .next t) : step (s.withAssertEn e) = .next (t.withAssertEn e) := by
  have hturn : (s.withAssertEn e).afterTurn = s.afterTurn.withAssertEn e := by
    rcases engineNext_cases hnext with hs | ⟨rest, hs⟩ | ⟨rest, hs⟩ <;>
      simp only [State.afterTurn, State.withAssertEn, hs]
  rw [h.step_engine hbusy hnext] at hstep
  cases hstep
  rw [(h.withAssertEn e).step_engine hbusy hnext, hturn, (h.running_afterTurn hbusy).pass.advance_withAssertEn]

/-! ## The statements -/

/-- Settles O33: the one place that looks at ASSERT_EN is the pass entry, whose assertions hold in both builds. -/
theorem assertionsDoNotChangeTheStep : Obligations.AssertionsDoNotChangeTheStep := by
  intro s t e h hstep
  by_cases hengine : s.engineNext = true ∧ s.busy = true
  · exact h.step_engine_withAssertEn hengine.1 hengine.2 hstep
  have hidle : s.engineNext = true → s.busy = false := fun hnext => by simpa [hnext] using hengine
  show step (s.withAssertEn e) = .next (t.withAssertEn e)
  cases hs : s.schedule with
  | nil =>
    have hb : s.busy = false := hidle (by rw [State.engineNext, hs])
    rw [step_alone_idle hs hb] at hstep
    cases hstep
    exact step_alone_idle (s := s.withAssertEn e) hs hb
  | cons ev rest =>
    cases ev with
    | engine =>
      have hb : s.busy = false := hidle (by rw [State.engineNext, hs])
      rw [step_turn_idle hs hb] at hstep
      cases hstep
      exact step_turn_idle (s := s.withAssertEn e) hs hb
    | wait =>
      have hb : s.busy = false := hidle (by rw [State.engineNext, hs])
      rw [step_wait_idle hs hb] at hstep
      cases hstep
      rw [step_wait_idle (s := s.withAssertEn e) hs hb]
      exact congrArg _ (readEvent_withAssertEn (s.setSchedule rest) _ e)
    | write ha v =>
      rw [step_write hs] at hstep
      cases hstep
      rw [step_write (s := s.withAssertEn e) hs]
      exact congrArg _ ((h.setSchedule rest).hostWrite_withAssertEn ha v e)
    | read ha =>
      rw [step_read hs] at hstep
      cases hstep
      rw [step_read (s := s.withAssertEn e) hs]
      exact congrArg _ (readEvent_withAssertEn (s.setSchedule rest) ha e)
    | reset =>
      rw [step_reset hs] at hstep
      cases hstep
      exact step_reset (s := s.withAssertEn e) hs

/-- Settles O39: the engine's turn is `advance` in both states, and its path is `InPass.control_advance`. -/
theorem pathDoesNotDependOnKeys : Obligations.PathDoesNotDependOnKeys := by
  intro s s' t t' h h' hc hbusy hnext hnext' hstep hstep'
  have hbusy' : s'.busy = true := by
    simp only [State.control, Prod.mk.injEq] at hc
    obtain ⟨-, -, -, -, -, -, hb, -⟩ := hc
    exact hb ▸ hbusy
  have pass : ∀ {u : State}, Inv u → u.busy = true → InPass u.afterTurn ∧ u.afterTurn.control = u.control := by
    intro u hu hb
    obtain ⟨rest, hrest⟩ := u.afterTurn_eq_setSchedule
    exact ⟨(hu.running_afterTurn hb).pass, by rw [hrest]; rfl⟩
  obtain ⟨hpass, hcontrol⟩ := pass h hbusy
  obtain ⟨hpass', hcontrol'⟩ := pass h' hbusy'
  rw [h.step_engine hbusy hnext] at hstep
  rw [h'.step_engine hbusy' hnext'] at hstep'
  cases hstep; cases hstep'
  exact hpass.control_advance hpass' (hcontrol.trans (hc.trans hcontrol'.symm))

/-- Settles O51: `Running.stepsLeft_advance` for the step, `stepsLeft_accept` for the start. -/
theorem engineStepsCountDown : Obligations.EngineStepsCountDown := by
  refine ⟨fun s t h hbusy hnext hstep => ?_, fun s t h hidle hexec => ?_, fun s t r src h hidle hwf hexec => ?_⟩
  · obtain ⟨rest, hrest⟩ := s.afterTurn_eq_setSchedule
    rw [h.step_engine hbusy hnext] at hstep
    cases hstep
    rw [(h.running_afterTurn hbusy).stepsLeft_advance, hrest]; rfl
  · rw [exec_sort_ready ⟨hidle, h.no_fault.1⟩] at hexec
    cases hexec
    rw [stepsLeft_accept (h.isResting hidle).zero (by decide)]
    simp only [Bool.false_eq_true, if_false, show (0 : BitVec 3).toNat = 0 from rfl]
    omega
  · rw [exec_pass_ready ⟨hidle, h.no_fault.1⟩] at hexec
    cases hexec
    rw [stepsLeft_accept (h.isResting hidle).zero ((wellFormed_pass_iff r src).mp hwf)]
    simp

/-- Settles O52: `Inv.run_stepsLeft`, the end being a resting state of the invariant. -/
theorem runningCommandCompletes : Obligations.RunningCommandCompletes := by
  intro s h hbusy halone
  obtain ⟨t, hrun, ht, hidle, hc⟩ := h.run_stepsLeft _ hbusy halone rfl
  obtain ⟨hdone, hsort⟩ := hc.running hidle
  have hended : t.ended := ⟨hc.schedule.trans halone, hidle⟩
  exact ⟨t, hrun, hended, hdone, (ht.isResting hidle).zero, hc.len,
    fun herr => ⟨hended, ht.no_fault.1, hc.err.trans herr⟩, hsort⟩

end Sys2Proof.Machine
end

section
/-! PROOFS. A pass run to its end (41_pass_phases.md R77 to R87; 42_round_driver.md R102): the engine's steps against
the loops of the pseudocode, phase by phase, and the statements O40 to O42. -/

namespace Sys2Proof.Machine

/-! ## Runs -/

theorem runSteps_add {a b : Nat} {s t : State} {o : Host.Outcome State Fault Refusal} (h : runSteps a s = .next t)
    (h' : runSteps b t = o) : runSteps (a + b) s = o := by
  induction a generalizing s with
  | zero => cases h; rw [Nat.zero_add]; exact h'
  | succ a ih =>
    cases hs : step s with
    | next u =>
      rw [runSteps_succ hs] at h
      rw [Nat.add_right_comm, runSteps_succ hs]
      exact ih h
    | fault f =>
      have hcore : Sys2Proof.core.step s = .fault f := hs
      simp [runSteps, Host.Core.run, hcore] at h
    | refused r =>
      have hcore : Sys2Proof.core.step s = .refused r := hs
      simp [runSteps, Host.Core.run, hcore] at h

/-- The engine runs a pass alone. -/
structure Engaged (s : State) : Prop where
  pass : InPass s
  busy : s.busy = true
  alone : s.alone

theorem Engaged.step {s : State} (h : Engaged s) : Machine.step s = .next s.advance :=
  h.pass.step_alone h.busy h.alone

theorem Engaged.advance {s : State} (h : Engaged s) (hend : ¬ (s.phase = phaseClear ∧ s.idx.toNat = 256)) :
    Engaged s.advance := by
  have hpass := h.pass.advance hend
  obtain ⟨b0, b1, c, heq⟩ := h.pass.advance_frame hend
  rw [heq] at hpass ⊢
  exact ⟨hpass, h.busy, h.alone⟩

/-- A loop of `n` steps through the states `f 0, …, f n`, short of the end of the pass. -/
theorem Engaged.run_loop {f : Nat → State} {n : Nat} (h : Engaged (f 0))
    (hstep : ∀ k < n, Engaged (f k) →
      (f k).advance = f (k + 1) ∧ ¬ ((f k).phase = phaseClear ∧ (f k).idx.toNat = 256)) :
    runSteps n (f 0) = .next (f n) ∧ Engaged (f n) := by
  induction n with
  | zero => exact ⟨rfl, h⟩
  | succ n ih =>
    obtain ⟨hrun, heng⟩ := ih fun k hk => hstep k (by omega)
    obtain ⟨hadv, hend⟩ := hstep n (by omega) heng
    exact ⟨runSteps_add hrun (hadv ▸ runSteps_succ heng.step 0), hadv ▸ heng.advance hend⟩

/-! ## The loops write the counters, and SCATTER the key memories -/

/-- A loop whose every turn writes the counters only does so. -/
theorem foldl_cnt_frame {g : State → Nat → State} (hg : ∀ s i, ∃ c, g s i = { s with cnt := c }) (l : List Nat)
    (s : State) : ∃ c, l.foldl g s = { s with cnt := c } := by
  induction l generalizing s with
  | nil => exact ⟨_, rfl⟩
  | cons i l ih =>
    obtain ⟨c, hc⟩ := hg s i
    obtain ⟨c', hc'⟩ := ih (g s i)
    exact ⟨c', by rw [List.foldl_cons, hc', hc]⟩

theorem bigCount_frame (s : State) : ∃ c, bigCount s = { s with cnt := c } :=
  foldl_cnt_frame (fun _ _ => ⟨_, rfl⟩) _ s

theorem bigPrefixSum_frame (s : State) : ∃ c, bigPrefixSum s = { s with cnt := c } :=
  foldl_cnt_frame (fun _ _ => ⟨_, rfl⟩) _ s

theorem bigClear_frame (s : State) : ∃ c, bigClear s = { s with cnt := c } :=
  foldl_cnt_frame (fun _ _ => ⟨_, rfl⟩) _ s

/-- SCATTER's loop from the last key down, as a fold from the right. -/
theorem bigScatter_eq_foldr (s : State) : bigScatter s = (List.range s.len.toNat).foldr placeKey s := by
  rw [bigScatter, List.foldl_reverse]

theorem foldr_placeKey_frame (l : List Nat) (s : State) :
    ∃ b0 b1 c, l.foldr placeKey s = { s with buf0 := b0, buf1 := b1, cnt := c } := by
  induction l with
  | nil => exact ⟨_, _, _, rfl⟩
  | cons i l ih =>
    obtain ⟨b0, b1, c, h⟩ := ih
    have hframe := placeKey_frame i (l.foldr placeKey s)
    refine ⟨(placeKey i (l.foldr placeKey s)).buf0, (placeKey i (l.foldr placeKey s)).buf1,
      (placeKey i (l.foldr placeKey s)).cnt, ?_⟩
    rw [List.foldr_cons]
    conv => lhs; rw [hframe]
    rw [h]

/-- SCATTER's loop leaves the source memory. -/
theorem buf_foldr_placeKey (l : List Nat) (s : State) : (l.foldr placeKey s).buf s.srcsel = s.buf s.srcsel := by
  induction l with
  | nil => rfl
  | cons i l ih =>
    obtain ⟨b0, b1, c, h⟩ := foldr_placeKey_frame l s
    have hsel : (l.foldr placeKey s).srcsel = s.srcsel := by rw [h]
    have hbuf := buf_srcsel_placeKey i (l.foldr placeKey s)
    rw [hsel] at hbuf
    exact hbuf.trans ih

/-! ## Phase by phase: the steps make the loop -/

theorem toNat_ofNat_word {k : Nat} {w : Word} (h : k ≤ w.toNat) : (BitVec.ofNat 32 k).toNat = k := by
  rw [BitVec.toNat_ofNat, Nat.mod_eq_of_lt (by have := w.isLt; omega)]

/-- COUNT after `k` key steps from `t`. -/
def countAt (t : State) (k : Nat) : State :=
  ((List.range k).foldl (fun t i => countKey i t) t).enterPhase phaseCount (BitVec.ofNat 32 k)

/-- PREFIX after `k` counter steps from `t`. -/
def prefixAt (t : State) (k : Nat) : State :=
  ((List.range' 1 k).foldl (fun t d => sumCounter d t) t).enterPhase phasePrefixSum (BitVec.ofNat 32 (k + 1))

/-- SCATTER after `k` key steps from `t`, the last keys first. -/
def scatterAt (t : State) (k : Nat) : State :=
  ((List.range' (t.len.toNat - k) k).foldr placeKey t).enterPhase phaseScatter (BitVec.ofNat 32 (t.len.toNat - k))

/-- CLEAR after `k` counter steps from `t`. -/
def clearAt (t : State) (k : Nat) : State :=
  ((List.range k).foldl (fun t d => zeroCounter d t) t).enterPhase phaseClear (BitVec.ofNat 32 k)

theorem ofNat_word_succ (k : Nat) : BitVec.ofNat 32 k + 1 = BitVec.ofNat 32 (k + 1) :=
  (BitVec.ofNat_add k 1).symm

theorem countAt_succ (t : State) (k : Nat) :
    countAt t (k + 1) = (countKey k (countAt t k)).setIdx (BitVec.ofNat 32 k + 1) := by
  rw [countAt, List.range_succ, List.foldl_append, ofNat_word_succ]; rfl

theorem prefixAt_succ (t : State) (k : Nat) :
    prefixAt t (k + 1) = (sumCounter (k + 1) (prefixAt t k)).setIdx (BitVec.ofNat 32 (k + 1) + 1) := by
  rw [prefixAt, List.range'_1_concat, List.foldl_append, ofNat_word_succ, Nat.add_comm 1 k]; rfl

theorem clearAt_succ (t : State) (k : Nat) :
    clearAt t (k + 1) = (zeroCounter k (clearAt t k)).setIdx (BitVec.ofNat 32 k + 1) := by
  rw [clearAt, List.range_succ, List.foldl_append, ofNat_word_succ]; rfl

/-- The data operation of SCATTER does not look at the position. -/
theorem placeKey_enterPhase (i : Nat) (s : State) (p : BitVec 3) (j : Word) :
    placeKey i (s.enterPhase p j) = (placeKey i s).enterPhase p j := by
  have hdst : (s.enterPhase p j).dst = s.dst := rfl
  unfold placeKey State.writeWord State.setBuf
  rw [hdst]
  cases s.dst <;> rfl

theorem scatterAt_succ {t : State} {k : Nat} (hk : k < t.len.toNat) :
    scatterAt t (k + 1) =
      (placeKey (t.len.toNat - k - 1) (scatterAt t k)).setIdx (BitVec.ofNat 32 (t.len.toNat - k) - 1) := by
  have hrange : List.range' (t.len.toNat - (k + 1)) (k + 1) =
      (t.len.toNat - k - 1) :: List.range' (t.len.toNat - k) k := by
    rw [List.range'_succ, show t.len.toNat - (k + 1) + 1 = t.len.toNat - k by omega, Nat.sub_sub]
  have hidx : BitVec.ofNat 32 (t.len.toNat - k) - 1 = BitVec.ofNat 32 (t.len.toNat - (k + 1)) := by
    have hval : (BitVec.ofNat 32 (t.len.toNat - k)).toNat = t.len.toNat - k :=
      toNat_ofNat_word (Nat.sub_le t.len.toNat k)
    have hval' := toNat_ofNat_word (Nat.sub_le t.len.toNat (k + 1))
    apply BitVec.eq_of_toNat_eq
    rw [toNat_sub_one (by omega), hval, hval']
    omega
  rw [scatterAt, hrange, hidx, scatterAt, placeKey_enterPhase]; rfl

theorem Engaged.run_count {t : State} (h : Engaged (t.enterPhase phaseCount 0)) :
    runSteps t.len.toNat (t.enterPhase phaseCount 0) = .next ((bigCount t).enterPhase phaseCount t.len) ∧
      Engaged ((bigCount t).enterPhase phaseCount t.len) := by
  have hend : (bigCount t).enterPhase phaseCount t.len = countAt t t.len.toNat := by
    rw [countAt, BitVec.ofNat_toNat, BitVec.setWidth_eq]; rfl
  rw [hend]
  refine Engaged.run_loop (f := countAt t) h fun k hk _ =>
    ⟨?_, fun hc => absurd (show phaseCount = phaseClear from hc.1) (by decide)⟩
  have hidx : (countAt t k).idx.toNat = k := toNat_ofNat_word hk.le
  have hlen : (countAt t k).len = t.len := by
    obtain ⟨c, hc⟩ := foldl_cnt_frame (g := fun t i => countKey i t) (fun _ _ => ⟨_, rfl⟩) (List.range k) t
    rw [countAt, hc]; rfl
  rw [State.advance_countKey rfl (by rw [hidx, hlen]; exact hk), hidx, countAt_succ]
  rfl

theorem Engaged.run_prefix {t : State} (h : Engaged (t.enterPhase phasePrefixSum 1)) :
    runSteps 255 (t.enterPhase phasePrefixSum 1) = .next ((bigPrefixSum t).enterPhase phasePrefixSum 256) ∧
      Engaged ((bigPrefixSum t).enterPhase phasePrefixSum 256) := by
  refine Engaged.run_loop (f := prefixAt t) (n := 255) h fun k hk _ =>
    ⟨?_, fun hc => absurd (show phasePrefixSum = phaseClear from hc.1) (by decide)⟩
  have hidx : (prefixAt t k).idx.toNat = k + 1 := toNat_ofNat_word (w := 255) (show k + 1 ≤ 255 by omega)
  rw [State.advance_sumCounter rfl (by omega), hidx, prefixAt_succ]
  rfl

theorem scatterAt_len (t : State) (k : Nat) : (scatterAt t k).len = t.len := by
  obtain ⟨b0, b1, c, h⟩ := foldr_placeKey_frame (List.range' (t.len.toNat - k) k) t
  rw [scatterAt, h]; rfl

/-- Every state SCATTER's loop goes through is one of the pass. -/
theorem Engaged.run_scatterAt {t : State} (h : Engaged (t.enterPhase phaseScatter t.len)) {n : Nat}
    (hn : n ≤ t.len.toNat) :
    runSteps n (t.enterPhase phaseScatter t.len) = .next (scatterAt t n) ∧ Engaged (scatterAt t n) := by
  have hstart : t.enterPhase phaseScatter t.len = scatterAt t 0 := by
    rw [scatterAt, Nat.sub_zero, BitVec.ofNat_toNat, BitVec.setWidth_eq]; rfl
  rw [hstart] at h ⊢
  refine Engaged.run_loop (f := scatterAt t) h fun k hk _ =>
    ⟨?_, fun hc => absurd (show phaseScatter = phaseClear from hc.1) (by decide)⟩
  have hidx : (scatterAt t k).idx.toNat = t.len.toNat - k := toNat_ofNat_word (Nat.sub_le t.len.toNat k)
  rw [State.advance_placeKey rfl (by omega), hidx, scatterAt_succ (by omega)]
  rfl

theorem scatterAt_last (t : State) : scatterAt t t.len.toNat = (bigScatter t).enterPhase phaseScatter 0 := by
  rw [scatterAt, Nat.sub_self, ← List.range_eq_range', bigScatter_eq_foldr]; rfl

theorem Engaged.run_scatter {t : State} (h : Engaged (t.enterPhase phaseScatter t.len)) :
    runSteps t.len.toNat (t.enterPhase phaseScatter t.len) = .next ((bigScatter t).enterPhase phaseScatter 0) ∧
      Engaged ((bigScatter t).enterPhase phaseScatter 0) :=
  scatterAt_last t ▸ h.run_scatterAt (Nat.le_refl _)

theorem Engaged.run_clear {t : State} (h : Engaged (t.enterPhase phaseClear 0)) :
    runSteps 256 (t.enterPhase phaseClear 0) = .next ((bigClear t).enterPhase phaseClear 256) ∧
      Engaged ((bigClear t).enterPhase phaseClear 256) := by
  refine Engaged.run_loop (f := clearAt t) (n := 256) h fun k hk _ => ?_
  have hidx : (clearAt t k).idx.toNat = k := toNat_ofNat_word (w := 256) (show k ≤ 256 by omega)
  refine ⟨?_, fun hc => by omega⟩
  rw [State.advance_zeroCounter rfl (by omega), hidx, clearAt_succ]
  rfl

/-- SCATTER stores below LEN only: `p(i) < N` (R84). -/
theorem Engaged.wordAt_bigScatter {t : State} (h : Engaged (t.enterPhase phaseScatter t.len)) (b : Bool) {a : Nat}
    (ha : t.len.toNat ≤ a) : (bigScatter t).wordAt b a = t.wordAt b a := by
  have hall : ∀ n ≤ t.len.toNat, (scatterAt t n).wordAt b a = t.wordAt b a := by
    intro n hn
    induction n with
    | zero => rfl
    | succ n ih =>
      have hpass := (h.run_scatterAt (n := n) (by omega)).2.pass
      have hidx : (scatterAt t n).idx.toNat = t.len.toNat - n := toNat_ofNat_word (Nat.sub_le t.len.toNat n)
      have hstore := hpass.storeIndex_eq_rank rfl (by omega)
      have hrank := (scatterAt t n).rank_lt_len (i := t.len.toNat - n - 1) (by rw [scatterAt_len]; omega)
      rw [hidx] at hstore
      rw [scatterAt_len] at hrank
      rw [scatterAt_succ (by omega)]
      refine (wordAt_placeKey _ (scatterAt t n) b a).trans ?_
      rw [if_neg (by omega)]
      exact ih (by omega)
  have hlast := hall _ (Nat.le_refl _)
  rw [scatterAt_last] at hlast
  exact hlast

/-! ## From pass entry to the end of each phase -/

theorem State.enterPhase_self {s : State} {p : BitVec 3} {j : Word} (hp : s.phase = p) (hj : s.idx = j) :
    s.enterPhase p j = s := by
  subst hp hj; rfl

theorem State.enterPhase_enterPhase (s : State) (p q : BitVec 3) (i j : Word) :
    (s.enterPhase p i).enterPhase q j = s.enterPhase q j := rfl

@[simp] theorem State.counter_enterPhase (s : State) (p : BitVec 3) (j : Word) (d : Digit) :
    (s.enterPhase p j).counter d = s.counter d := rfl

@[simp] theorem State.wordAt_enterPhase (s : State) (p : BitVec 3) (j : Word) (b : Bool) (a : Nat) :
    (s.enterPhase p j).wordAt b a = s.wordAt b a := rfl

@[simp] theorem State.buf_enterPhase (s : State) (p : BitVec 3) (j : Word) (b : Bool) :
    (s.enterPhase p j).buf b = s.buf b := rfl

theorem toNat_enterPhase_256 (s : State) (p : BitVec 3) : (s.enterPhase p 256).idx.toNat = 256 := by
  rw [State.enterPhase_idx]; rfl

/-- One more step of a run, short of the end of the pass. -/
theorem Engaged.run_step {k n : Nat} {s u : State} (h : runSteps n s = .next u ∧ Engaged u)
    (hend : ¬ (u.phase = phaseClear ∧ u.idx.toNat = 256)) (hk : k = n + 1) :
    runSteps k s = .next u.advance ∧ Engaged u.advance :=
  ⟨hk ▸ runSteps_add h.1 (runSteps_succ h.2.step 0), h.2.advance hend⟩

/-- A run followed by a run. -/
theorem Engaged.run_run {k n m : Nat} {s u v : State} (h : runSteps n s = .next u)
    (h' : runSteps m u = .next v ∧ Engaged v) (hk : k = n + m) : runSteps k s = .next v ∧ Engaged v :=
  ⟨hk ▸ runSteps_add h h'.1, h'.2⟩

/-- The state COUNT leaves, its position apart. -/
@[irreducible] def afterCount (s : State) : State := bigCount s

/-- The state PREFIX leaves, its position apart. -/
@[irreducible] def afterPrefix (s : State) : State := bigPrefixSum (afterCount s)

/-- The state SCATTER leaves, its position apart. -/
@[irreducible] def afterScatter (s : State) : State := bigScatter (afterPrefix s)

/-- The state CLEAR leaves, its position apart. -/
@[irreducible] def afterClear (s : State) : State := bigClear (afterScatter s)

theorem afterCount_eq (s : State) : afterCount s = bigCount s := by delta afterCount; rfl

theorem afterPrefix_eq (s : State) : afterPrefix s = bigPrefixSum (afterCount s) := by delta afterPrefix; rfl

theorem afterScatter_eq (s : State) : afterScatter s = bigScatter (afterPrefix s) := by delta afterScatter; rfl

theorem afterClear_eq (s : State) : afterClear s = bigClear (afterScatter s) := by delta afterClear; rfl

theorem afterCount_frame (s : State) : ∃ c, afterCount s = { s with cnt := c } := by
  rw [afterCount_eq]; exact bigCount_frame s

theorem afterPrefix_frame (s : State) : ∃ c, afterPrefix s = { s with cnt := c } := by
  obtain ⟨c, hc⟩ := afterCount_frame s
  obtain ⟨c', hc'⟩ := bigPrefixSum_frame (afterCount s)
  exact ⟨c', by rw [afterPrefix_eq, hc', hc]⟩

theorem afterPrefix_len (s : State) : (afterPrefix s).len = s.len := by
  obtain ⟨c, hc⟩ := afterPrefix_frame s
  rw [hc]

theorem afterScatter_frame (s : State) :
    ∃ b0 b1 c, afterScatter s = { s with buf0 := b0, buf1 := b1, cnt := c } := by
  obtain ⟨c, hc⟩ := afterPrefix_frame s
  obtain ⟨b0, b1, c', hc'⟩ := foldr_placeKey_frame (List.range (afterPrefix s).len.toNat) (afterPrefix s)
  exact ⟨b0, b1, c', by rw [afterScatter_eq, bigScatter_eq_foldr, hc', hc]⟩

theorem afterClear_frame (s : State) :
    ∃ c, afterClear s = { afterScatter s with cnt := c } := by
  rw [afterClear_eq]; exact bigClear_frame (afterScatter s)

/-- CLEAR leaves the key memories. -/
theorem buf_afterClear (s : State) (b : Bool) : (afterClear s).buf b = (afterScatter s).buf b := by
  obtain ⟨c, hc⟩ := afterClear_frame s
  rw [hc]
  generalize afterScatter s = u
  rfl

theorem wordAt_afterClear (s : State) (b : Bool) (a : Nat) :
    (afterClear s).wordAt b a = (afterScatter s).wordAt b a := by
  obtain ⟨c, hc⟩ := afterClear_frame s
  rw [hc]
  generalize afterScatter s = u
  rfl

theorem buf_afterScatter (s : State) : (afterScatter s).buf s.srcsel = s.buf s.srcsel := by
  obtain ⟨c, hc⟩ := afterPrefix_frame s
  have hsel : (afterPrefix s).srcsel = s.srcsel := by rw [hc]
  have hbuf := buf_foldr_placeKey (List.range (afterPrefix s).len.toNat) (afterPrefix s)
  rw [← bigScatter_eq_foldr, ← afterScatter_eq, hsel] at hbuf
  rw [hbuf, hc]; rfl

/-- SCATTER leaves the digits of the pass as they were: its source memory is not written (R84). -/
theorem sameDigits_afterScatter (s : State) (p : BitVec 3) (j : Word) :
    SameDigits s ((afterScatter s).enterPhase p j) := by
  have hbuf := buf_afterScatter s
  obtain ⟨b0, b1, c, hc⟩ := afterScatter_frame s
  rw [hc] at hbuf ⊢
  exact sameDigits hbuf rfl rfl rfl rfl

section
variable {s : State} (h : AtPassEntry s) (halone : s.alone)
include h halone

theorem engaged_of_entry : Engaged (s.enterPhase phaseCount 0) :=
  (State.enterPhase_self h.phase h.idx).symm ▸ ⟨InPass.of_atPassEntry h, h.busy, halone⟩

theorem run_entry_count :
    runSteps s.len.toNat s = .next ((afterCount s).enterPhase phaseCount s.len) ∧
      Engaged ((afterCount s).enterPhase phaseCount s.len) := by
  have hrun := (engaged_of_entry h halone).run_count
  rwa [State.enterPhase_self h.phase h.idx, ← afterCount_eq] at hrun

theorem run_entry_prefix :
    runSteps (s.len.toNat + 256) s = .next ((afterPrefix s).enterPhase phasePrefixSum 256) ∧
      Engaged ((afterPrefix s).enterPhase phasePrefixSum 256) := by
  have hlen : (afterCount s).len = s.len := by obtain ⟨c, hc⟩ := afterCount_frame s; rw [hc]
  have hstep := Engaged.run_step (run_entry_count h halone)
    (fun hc => absurd (show phaseCount = phaseClear from hc.1) (by decide)) rfl
  rw [State.advance_countEnd rfl (congrArg BitVec.toNat hlen.symm), State.enterPhase_enterPhase] at hstep
  have hsums := Engaged.run_prefix (t := afterCount s) hstep.2
  rw [← afterPrefix_eq] at hsums
  exact Engaged.run_run hstep.1 hsums (by omega)

/-- PREFIX is over and SCATTER begins. -/
theorem run_entry_sums :
    runSteps (s.len.toNat + 257) s = .next ((afterPrefix s).enterPhase phaseScatter (afterPrefix s).len) ∧
      Engaged ((afterPrefix s).enterPhase phaseScatter (afterPrefix s).len) := by
  have hstep := Engaged.run_step (k := s.len.toNat + 257) (run_entry_prefix h halone)
    (fun hc => absurd (show phasePrefixSum = phaseClear from hc.1) (by decide)) (by omega)
  rw [State.advance_prefixEnd rfl (toNat_enterPhase_256 _ _), State.enterPhase_enterPhase,
    State.enterPhase_len] at hstep
  exact hstep

theorem run_entry_scatter :
    runSteps (2 * s.len.toNat + 257) s = .next ((afterScatter s).enterPhase phaseScatter 0) ∧
      Engaged ((afterScatter s).enterPhase phaseScatter 0) := by
  obtain ⟨hrun, heng⟩ := run_entry_sums h halone
  have hplaced := heng.run_scatter
  rw [← afterScatter_eq, afterPrefix_len] at hplaced
  rw [afterPrefix_len] at hrun
  exact Engaged.run_run hrun hplaced (by omega)

theorem run_entry_clear :
    runSteps (2 * s.len.toNat + 514) s = .next ((afterClear s).enterPhase phaseClear 256) ∧
      Engaged ((afterClear s).enterPhase phaseClear 256) := by
  have hstep := Engaged.run_step (run_entry_scatter h halone)
    (fun hc => absurd (show phaseScatter = phaseClear from hc.1) (by decide)) rfl
  rw [State.advance_scatterEnd rfl rfl, State.enterPhase_enterPhase] at hstep
  have hcleared := Engaged.run_clear (t := afterScatter s) hstep.2
  rw [← afterClear_eq] at hcleared
  exact Engaged.run_run hstep.1 hcleared (by omega)

/-! ## What each phase leaves -/

theorem counter_afterCount (d : Digit) : ((afterCount s).counter d).toNat = s.histogram d := by
  have hcount := (run_entry_count h halone).2.pass.counters d
  have hdig : ∀ i, ((afterCount s).enterPhase phaseCount s.len).dig i = s.dig i := by
    obtain ⟨c, hc⟩ := afterCount_frame s
    rw [hc]; exact fun _ => rfl
  rw [State.expectedCounter_count rfl, State.countBelow_congr hdig, State.counter_enterPhase] at hcount
  exact hcount

theorem counter_afterPrefix (d : Digit) : ((afterPrefix s).counter d).toNat = s.incl d := by
  have hcount := (run_entry_prefix h halone).2.pass.counters d
  have hsame : SameDigits s ((afterPrefix s).enterPhase phasePrefixSum 256) := by
    obtain ⟨c, hc⟩ := afterPrefix_frame s
    rw [hc]; exact ⟨fun _ => rfl, rfl⟩
  have hlt : d.toNat < (256 : Word).toNat := d.isLt
  rw [State.expectedCounter_prefix rfl, State.enterPhase_idx, if_pos hlt, State.incl_congr hsame.dig hsame.len,
    State.counter_enterPhase] at hcount
  exact hcount

theorem counter_afterScatter (d : Digit) : ((afterScatter s).counter d).toNat = s.excl d := by
  have hsame := sameDigits_afterScatter s phaseScatter 0
  have hcount := (run_entry_scatter h halone).2.pass.counters d
  rw [State.expectedCounter_scatter rfl, State.excl_congr hsame.dig hsame.len, State.counter_enterPhase] at hcount
  exact hcount

/-- Every key stands at its place (R84). -/
theorem wordAt_afterScatter_rank {i : Nat} (hi : i < s.len.toNat) :
    (afterScatter s).wordAt (!s.srcsel) (s.rank i) = s.wordAt s.srcsel i := by
  have hsame := sameDigits_afterScatter s phaseScatter 0
  have hbuf := buf_afterScatter s
  have hplaced := (run_entry_scatter h halone).2.pass.placed (.inl rfl) i
    (by rw [State.placedFrom_scatter rfl]; exact Nat.zero_le i) (hsame.len.symm ▸ hi)
  rw [State.rank_congr hsame.dig hsame.len] at hplaced
  obtain ⟨b0, b1, c, hc⟩ := afterScatter_frame s
  rw [hc] at hplaced hbuf ⊢
  exact hplaced.trans (State.wordAt_congr (s := s) hbuf rfl i)

/-- No word at or above LEN changes (R84). -/
theorem wordAt_afterScatter_tail (b : Bool) {a : Nat} (ha : s.len.toNat ≤ a) :
    (afterScatter s).wordAt b a = s.wordAt b a := by
  obtain ⟨c, hc⟩ := afterPrefix_frame s
  have htail := (run_entry_sums h halone).2.wordAt_bigScatter b (a := a) (by rw [afterPrefix_len]; exact ha)
  rw [← afterScatter_eq] at htail
  rw [htail, hc]; rfl

theorem countersZero_afterClear : (afterClear s).countersZero :=
  fun d => by
    have hzero := (run_entry_clear h halone).2.pass.countersZero_of_clearEnd rfl (toNat_enterPhase_256 _ _) d
    rwa [State.counter_enterPhase] at hzero

end

/-! ## The sum of the histogram -/

/-- The histogram up to a digit adds up to the inclusive count of it. -/
theorem State.sum_histogram (s : State) {n : Nat} (hn : n < 256) :
    ((List.range (n + 1)).map fun d => s.histogram (BitVec.ofNat 8 d)).sum = s.incl (BitVec.ofNat 8 n) := by
  induction n with
  | zero => simp [State.incl_eq]
  | succ n ih =>
    have hsucc : (BitVec.ofNat 8 (n + 1)).toNat = (BitVec.ofNat 8 n).toNat + 1 := by
      rw [BitVec.toNat_ofNat, BitVec.toNat_ofNat]; omega
    rw [List.range_succ, List.map_append, List.sum_append, ih (by omega), State.incl_eq s (BitVec.ofNat 8 (n + 1)),
      State.excl_eq_incl_pred s hsucc]
    simp

/-! ## The statements -/

/-- Settles O40: N turns of COUNT's loop from zero counters; the histogram adds up to `incl 255`, which is N. -/
theorem countLeavesTheHistogram : Obligations.CountLeavesTheHistogram := by
  intro s h halone
  obtain ⟨hrun, -⟩ := run_entry_count h halone
  have hcounter := counter_afterCount h halone
  refine ⟨_, hrun, ?_⟩
  simp only [State.counter_enterPhase, hcounter]
  refine ⟨fun _ => trivial, ?_, ?_⟩
  · exact (s.sum_histogram (n := 255) (by omega)).trans s.incl_last
  · obtain ⟨c, hc⟩ := afterCount_frame s
    rw [hc, ← h.phase]; rfl

/-- Settles O41: PREFIX's loop after COUNT's; the inclusive counts are monotone since the digits' ranges are
disjoint. -/
theorem prefixLeavesTheInclusiveSums : Obligations.PrefixLeavesTheInclusiveSums := by
  intro s h halone
  obtain ⟨hrun, -⟩ := run_entry_prefix h halone
  have hcounter := counter_afterPrefix h halone
  have hcounter' : ∀ d, (((afterPrefix s).enterPhase phasePrefixSum 256).counter d).toNat = s.incl d := fun d => by
    rw [State.counter_enterPhase]; exact hcounter d
  refine ⟨_, hrun, State.enterPhase_phase _ _ _, State.enterPhase_idx _ _ _, hcounter', ?_, fun d e hde => ?_,
    s.incl_eq, ?_⟩
  · rw [hcounter']; exact s.incl_last
  · rw [hcounter', hcounter']
    rcases (show d.toNat ≤ e.toNat from hde).eq_or_lt with heq | hlt
    · rw [BitVec.eq_of_toNat_eq heq]
    · exact (s.incl_le_excl hlt).trans (by rw [State.incl_eq]; omega)
  · obtain ⟨c, hc⟩ := afterPrefix_frame s
    rw [hc]; rfl

/-- Settles O42: SCATTER's loop after the other two. -/
theorem scatterPlacesEveryKey : Obligations.ScatterPlacesEveryKey := by
  intro s h halone
  obtain ⟨hrun, -⟩ := run_entry_scatter h halone
  refine ⟨_, hrun, State.enterPhase_phase _ _ _, State.enterPhase_idx _ _ _, ?_⟩
  simp only [State.counter_enterPhase, State.wordAt_enterPhase, State.buf_enterPhase]
  exact ⟨fun i hi => wordAt_afterScatter_rank h halone hi, buf_afterScatter s,
    fun a ha => wordAt_afterScatter_tail h halone _ ha, counter_afterScatter h halone⟩

end Sys2Proof.Machine
end

section
/-! PROOFS. Commands run to completion against the big-step pseudocode (40_commands.md R63, R64; 42_round_driver.md R99,
R102): the pass as a function of the idle state, and the statements O44 and O45. -/

namespace Sys2Proof.Machine

/-! ## The loops do not look at the position, the flags or SINGLE -/

/-- `s` with other control registers and flags. -/
def State.withControl (s : State) (p : BitVec 3) (j : Word) (single busy done : Bool) : State :=
  { s with phase := p, idx := j, single := single, busy := busy, done := done }

section
variable (s : State) (p : BitVec 3) (j : Word) (single busy done : Bool)

theorem wordAt_withControl (b : Bool) (a : Nat) : (s.withControl p j single busy done).wordAt b a = s.wordAt b a := rfl

theorem enterPhase_withControl (q : BitVec 3) (i : Word) :
    (s.withControl p j single busy done).enterPhase q i = s.withControl q i single busy done := rfl

theorem counter_withControl (d : Digit) : (s.withControl p j single busy done).counter d = s.counter d := rfl

theorem placeKey_withControl (i : Nat) :
    placeKey i (s.withControl p j single busy done) = (placeKey i s).withControl p j single busy done := by
  have hdst : (s.withControl p j single busy done).dst = s.dst := rfl
  unfold placeKey State.writeWord State.setBuf
  rw [hdst]
  cases s.dst <;> rfl

theorem bigCount_withControl :
    bigCount (s.withControl p j single busy done) = (bigCount s).withControl p j single busy done :=
  List.foldl_hom (State.withControl · p j single busy done) (fun _ _ => rfl)

theorem bigPrefixSum_withControl :
    bigPrefixSum (s.withControl p j single busy done) = (bigPrefixSum s).withControl p j single busy done :=
  List.foldl_hom (State.withControl · p j single busy done) (fun _ _ => rfl)

theorem bigScatter_withControl :
    bigScatter (s.withControl p j single busy done) = (bigScatter s).withControl p j single busy done :=
  List.foldl_hom (State.withControl · p j single busy done)
    (fun t i => placeKey_withControl t p j single busy done i)

theorem bigClear_withControl :
    bigClear (s.withControl p j single busy done) = (bigClear s).withControl p j single busy done :=
  List.foldl_hom (State.withControl · p j single busy done) (fun _ _ => rfl)

theorem afterScatter_withControl :
    afterScatter (s.withControl p j single busy done) = (afterScatter s).withControl p j single busy done := by
  simp only [afterScatter_eq, afterPrefix_eq, afterCount_eq, bigCount_withControl, bigPrefixSum_withControl,
    bigScatter_withControl]

theorem afterClear_withControl :
    afterClear (s.withControl p j single busy done) = (afterClear s).withControl p j single busy done := by
  rw [afterClear_eq, afterScatter_withControl, bigClear_withControl, ← afterClear_eq]

end

/-! ## The pass as the loops give it -/

/-- `s` as the pass `r` from `src` sees it. -/
def State.forPass (s : State) (r : BitVec 3) (src : Bool) : State := { s with srcsel := src, round := r }

theorem bigPass_eq (src : Bool) (r : BitVec 3) (s : State) : bigPass src r s = afterClear (s.forPass r src) := by
  rw [afterClear_eq, afterScatter_eq, afterPrefix_eq, afterCount_eq]; rfl

/-- What a pass needs of an idle state (R76). -/
structure PassReady (s : State) : Prop where
  zero : s.countersZero
  len_le : s.len.toNat ≤ s.cfg.nmax.toNat
  alone : s.alone

/-- The running state in which a pass of a command starts. -/
def State.passStart (s : State) (single : Bool) (r : BitVec 3) (src : Bool) : State :=
  (s.forPass r src).withControl phaseCount 0 single true false

theorem PassReady.atPassEntry {s : State} (h : PassReady s) (single : Bool) {r : BitVec 3} (hr : r.toNat ≤ 3)
    (src : Bool) : AtPassEntry (s.passStart single r src) :=
  ⟨rfl, rfl, rfl, hr, h.zero, h.len_le⟩

theorem PassReady.accept {s : State} (h : PassReady s) (single : Bool) {r : BitVec 3} (hr : r.toNat ≤ 3)
    (src : Bool) : accept single r src s = s.passStart single r src :=
  accept_ok hr fun _ => h.zero

/-- What a pass writes: the key memories and the counters, with ROUND and SRCSEL as it was given them. -/
theorem bigPass_frame (src : Bool) (r : BitVec 3) (s : State) :
    ∃ b0 b1 c, bigPass src r s = { s with srcsel := src, round := r, buf0 := b0, buf1 := b1, cnt := c } := by
  obtain ⟨c, hc⟩ := afterClear_frame (s.forPass r src)
  obtain ⟨b0, b1, c', hc'⟩ := afterScatter_frame (s.forPass r src)
  exact ⟨b0, b1, c, by rw [bigPass_eq, hc, hc']; rfl⟩

/-- What a pass leaves (R84 to R87). -/
structure PassResult (s : State) (r : BitVec 3) (src : Bool) (u : State) : Prop where
  placed : ∀ i, i < s.len.toNat → u.wordAt (!src) ((s.forPass r src).rank i) = s.wordAt src i
  source : u.buf src = s.buf src
  tail : ∀ b a, s.len.toNat ≤ a → u.wordAt b a = s.wordAt b a
  zero : u.countersZero

theorem PassReady.bigPass_result {s : State} (h : PassReady s) {r : BitVec 3} (hr : r.toNat ≤ 3) (src : Bool) :
    PassResult s r src (bigPass src r s) := by
  have hentry := h.atPassEntry true hr src
  have halone : (s.passStart true r src).alone := h.alone
  have hword : ∀ b a, (bigPass src r s).wordAt b a = (afterScatter (s.passStart true r src)).wordAt b a := fun b a => by
    rw [bigPass_eq, wordAt_afterClear, State.passStart, afterScatter_withControl, wordAt_withControl]
  refine ⟨fun i hi => ?_, ?_, fun b a ha => ?_, fun d => ?_⟩
  · rw [hword]; exact wordAt_afterScatter_rank hentry halone hi
  · rw [bigPass_eq, buf_afterClear]; exact buf_afterScatter (s.forPass r src)
  · rw [hword]; exact wordAt_afterScatter_tail hentry halone b ha
  · have hzero := countersZero_afterClear hentry halone d
    rwa [State.passStart, afterClear_withControl, counter_withControl, ← bigPass_eq] at hzero

/-- A pass leaves a state the next pass can start from. -/
theorem PassReady.bigPass {s : State} (h : PassReady s) {r : BitVec 3} (hr : r.toNat ≤ 3) (src : Bool) :
    PassReady (Machine.bigPass src r s) := by
  have hzero := (h.bigPass_result hr src).zero
  obtain ⟨b0, b1, c, hc⟩ := bigPass_frame src r s
  rw [hc] at hzero ⊢
  exact ⟨hzero, h.len_le, h.alone⟩

/-! ## A pass run to its end -/

/-- The steps of a pass up to PassEnd. -/
theorem PassReady.run_to_passEnd {s : State} (h : PassReady s) (single : Bool) {r : BitVec 3} (hr : r.toNat ≤ 3)
    (src : Bool) :
    runSteps (2 * s.len.toNat + 514) (s.passStart single r src) =
        .next ((Machine.bigPass src r s).withControl phaseClear 256 single true false) ∧
      Engaged ((Machine.bigPass src r s).withControl phaseClear 256 single true false) := by
  have hrun := run_entry_clear (h.atPassEntry single hr src) h.alone
  have hstate : (afterClear (s.passStart single r src)).enterPhase phaseClear 256 =
      (Machine.bigPass src r s).withControl phaseClear 256 single true false := by
    rw [State.passStart, afterClear_withControl, bigPass_eq, enterPhase_withControl]
  rwa [hstate] at hrun

/-- A command's last pass completes it with what the pseudocode of the pass gives. -/
theorem PassReady.run_completes {s : State} (h : PassReady s) {single : Bool} {r : BitVec 3} (hr : r.toNat ≤ 3)
    (src : Bool) (hlast : single = true ∨ r = 3) :
    runSteps (2 * s.len.toNat + 515) (s.passStart single r src) =
      .next (completed (r + 1) (!src) single (Machine.bigPass src r s)) := by
  obtain ⟨hrun, heng⟩ := h.run_to_passEnd single hr src
  have hstep := heng.step
  obtain ⟨b0, b1, c, hc⟩ := bigPass_frame src r s
  rw [hc] at hrun hstep ⊢
  rw [State.advance_completes rfl rfl hlast] at hstep
  rw [show 2 * s.len.toNat + 515 = 2 * s.len.toNat + 514 + 1 by omega]
  exact runSteps_add hrun (runSteps_succ hstep 0)

/-- An earlier pass of a SORT ends where the next one starts. -/
theorem PassReady.run_nextRound {s : State} (h : PassReady s) {r : BitVec 3} (hr : r.toNat < 3) (src : Bool) :
    runSteps (2 * s.len.toNat + 515) (s.passStart false r src) =
      .next ((Machine.bigPass src r s).passStart false (r + 1) (!src)) := by
  obtain ⟨hrun, heng⟩ := h.run_to_passEnd false hr.le src
  have hstep := heng.step
  have hpass := heng.pass
  obtain ⟨b0, b1, c, hc⟩ := bigPass_frame src r s
  rw [hc] at hrun hstep hpass ⊢
  rw [hpass.advance_nextRound rfl rfl ⟨rfl, hr⟩] at hstep
  rw [show 2 * s.len.toNat + 515 = 2 * s.len.toNat + 514 + 1 by omega]
  exact runSteps_add hrun (runSteps_succ hstep 0)

/-! ## Commands run to completion -/

theorem PassReady.run_pass {s : State} (h : PassReady s) {r : BitVec 3} (hr : r.toNat ≤ 3) (src : Bool) :
    runSteps (2 * s.len.toNat + 515) (s.passStart true r src) = .next (bigPassCommand r src s) :=
  h.run_completes hr src (.inl rfl)

theorem bigPass_len (src : Bool) (r : BitVec 3) (s : State) : (bigPass src r s).len = s.len := by
  obtain ⟨b0, b1, c, hc⟩ := bigPass_frame src r s
  rw [hc]

/-- SORT is its four passes, each starting where the one before ended. -/
theorem PassReady.run_sort {s : State} (h : PassReady s) :
    runSteps (8 * s.len.toNat + 2060) (s.passStart false 0 false) = .next (bigSort s) := by
  have h1 := h.bigPass (r := 0) (by decide) false
  have h2 := h1.bigPass (r := 1) (by decide) true
  have h3 := h2.bigPass (r := 2) (by decide) false
  have r0 := h.run_nextRound (r := 0) (by decide) false
  have r1 := h1.run_nextRound (r := 1) (by decide) true
  have r2 := h2.run_nextRound (r := 2) (by decide) false
  have r3 := h3.run_completes (single := false) (r := 3) (by decide) true (.inr rfl)
  simp only [bigPass_len] at r1 r2 r3
  have hsteps : 8 * s.len.toNat + 2060 = 2 * s.len.toNat + 515 + (2 * s.len.toNat + 515 +
      (2 * s.len.toNat + 515 + (2 * s.len.toNat + 515))) := by omega
  rw [hsteps]
  exact runSteps_add r0 (runSteps_add r1 (runSteps_add r2 r3))

/-- An idle state of the invariant with nothing scheduled takes a command. -/
theorem Inv.passReady {s : State} (h : Inv s) (hidle : s.busy = false) (halone : s.alone) : PassReady s :=
  ⟨(h.isResting hidle).zero, h.len_le, halone⟩

theorem PassReady.exec_sort {s : State} (h : PassReady s) (hready : s.ready) :
    exec .sort s = .next (s.passStart false 0 false) := by
  rw [exec_sort_ready hready, h.accept false (by decide)]

theorem PassReady.exec_pass {s : State} (h : PassReady s) (hready : s.ready) {r : BitVec 3} (hr : r.toNat ≤ 3)
    (src : Bool) : exec (.pass r src) s = .next (s.passStart true r src) := by
  rw [exec_pass_ready hready, h.accept true hr]

/-- Settles O45: acceptance gives `passStart`; from there the runs are `PassReady.run_sort` and `PassReady.run_pass`. -/
theorem microStepsAgreeWithBigSteps : Obligations.MicroStepsAgreeWithBigSteps := by
  intro s t h hidle halone
  have hpass := h.passReady hidle halone
  have hready : s.ready := ⟨hidle, h.no_fault.1⟩
  refine ⟨fun hexec => ?_, fun r src hwf hexec => ?_⟩
  · rw [hpass.exec_sort hready] at hexec
    cases hexec
    exact hpass.run_sort
  · have hr := (wellFormed_pass_iff r src).mp hwf
    rw [hpass.exec_pass hready hr] at hexec
    cases hexec
    exact hpass.run_pass hr src

end Sys2Proof.Machine
end

section
/-! PROOFS. Stable sorting of a list by a key function: uniqueness, composition from the least significant part up, and
the library's stable sort (40_commands.md section 4). -/

namespace Sys2Proof.Machine

/-- `l'` is `l` in ascending order of `f`, elements with one value of `f` in the order they had. -/
structure StableSorted {α : Type} (f : α → Nat) (l l' : List α) : Prop where
  sorted : l'.Pairwise fun x y => f x ≤ f y
  stable : ∀ v, l'.filter (fun x => decide (f x = v)) = l.filter (fun x => decide (f x = v))

namespace StableSorted
variable {α : Type} {f : α → Nat} {l l' : List α}

/-- The elements with one value of `f` make up the whole. -/
theorem perm [DecidableEq α] (h : StableSorted f l l') : l'.Perm l := by
  rw [List.perm_iff_count]
  intro a
  have hcount := congrArg (List.count a) (h.stable (f a))
  rwa [List.count_filter (by simp), List.count_filter (by simp)] at hcount

theorem mem_iff [DecidableEq α] (h : StableSorted f l l') (a : α) : a ∈ l' ↔ a ∈ l := h.perm.mem_iff

/-- A list already in order is its own stable sort. -/
theorem self (h : l.Pairwise fun x y => f x ≤ f y) : StableSorted f l l := ⟨h, fun _ => rfl⟩

/-- Two lists in order with the same elements of each value, in the same order, are equal: their heads are the first
elements of the least value. -/
theorem eq_of_filter_eq [DecidableEq α] : ∀ {l₁ l₂ : List α}, (l₁.Pairwise fun x y => f x ≤ f y) →
    StableSorted f l₁ l₂ → l₁ = l₂
  | [], l₂, _, h => (List.perm_nil.mp h.perm).symm
  | a :: l₁, [], _, h => by simpa using h.perm.length_eq
  | a :: l₁, b :: l₂, hl, h => by
    obtain ⟨ha, hl₁⟩ := List.pairwise_cons.mp hl
    obtain ⟨hb, hl₂⟩ := List.pairwise_cons.mp h.sorted
    have hab : f a ≤ f b := by
      rcases List.mem_cons.mp ((h.mem_iff b).mp (by simp)) with rfl | hmem
      · exact Nat.le_refl _
      · exact ha b hmem
    have hba : f b ≤ f a := by
      rcases List.mem_cons.mp ((h.mem_iff a).mpr (by simp)) with rfl | hmem
      · exact Nat.le_refl _
      · exact hb a hmem
    have hval : f b = f a := by omega
    have hhead := h.stable (f a)
    rw [List.filter_cons_of_pos (by simp [hval]), List.filter_cons_of_pos (by simp)] at hhead
    obtain ⟨rfl, -⟩ := List.cons_eq_cons.mp hhead
    congr 1
    refine eq_of_filter_eq hl₁ ⟨hl₂, fun v => ?_⟩
    have hv := h.stable v
    by_cases hbv : f b = v
    · rw [List.filter_cons_of_pos (by simp [hbv]), List.filter_cons_of_pos (by simp [hbv])] at hv
      exact (List.cons_eq_cons.mp hv).2
    · rwa [List.filter_cons_of_neg (by simp [hbv]), List.filter_cons_of_neg (by simp [hbv])] at hv

/-- The stable sort of a list is unique. -/
theorem unique [DecidableEq α] {l₁ l₂ : List α} (h₁ : StableSorted f l l₁) (h₂ : StableSorted f l l₂) : l₁ = l₂ :=
  eq_of_filter_eq h₁.sorted ⟨h₂.sorted, fun v => (h₂.stable v).trans (h₁.stable v).symm⟩

/-- A list in order of `g` whose elements of each value of `g` are in order of `f` is in lexicographic order. -/
theorem pairwise_lex {g : α → Nat} (hg : l.Pairwise fun x y => g x ≤ g y)
    (hf : ∀ v, (l.filter fun x => decide (g x = v)).Pairwise fun x y => f x ≤ f y) :
    l.Pairwise fun x y => g x < g y ∨ g x = g y ∧ f x ≤ f y := by
  have hsame : l.Pairwise fun x y => g x = g y → f x ≤ f y := by
    clear hg
    induction l with
    | nil => exact .nil
    | cons a l ih =>
      have ha := hf (g a)
      rw [List.filter_cons_of_pos (by simp)] at ha
      refine .cons (fun b hb heq => ?_) (ih fun v => ?_)
      · exact (List.pairwise_cons.mp ha).1 b (List.mem_filter.mpr ⟨hb, by simp [heq]⟩)
      · exact (hf v).sublist ((List.sublist_cons_self a l).filter _)
  exact (hg.and hsame).imp fun ⟨hle, himp⟩ => hle.eq_or_lt.elim (fun heq => .inr ⟨heq, himp heq⟩) .inl

/-- Sorting by the low part `f`, then stably by the high part `g`, sorts by the whole `g · M + f`. -/
theorem comp {g h : α → Nat} {M : Nat} {l₁ l₂ : List α} (hf : ∀ x, f x < M) (hh : ∀ x, h x = g x * M + f x)
    (h₁ : StableSorted f l l₁) (h₂ : StableSorted g l₁ l₂) : StableSorted h l l₂ := by
  have hwhole : ∀ x v, decide (h x = v) = (decide (f x = v % M) && decide (g x = v / M)) := by
    intro x v
    have huniq := Nat.div_mod_unique (a := v) (c := f x) (d := g x) (Nat.zero_lt_of_lt (hf x))
    rw [← Bool.decide_and, decide_eq_decide]
    constructor
    · intro he
      obtain ⟨hdiv, hmod⟩ := huniq.mpr ⟨by rw [← he, hh, Nat.mul_comm, Nat.add_comm], hf x⟩
      exact ⟨hmod.symm, hdiv.symm⟩
    · rintro ⟨hmod, hdiv⟩
      obtain ⟨he, -⟩ := huniq.mp ⟨hdiv.symm, hmod.symm⟩
      rw [hh, ← he, Nat.mul_comm, Nat.add_comm]
  refine ⟨?_, fun v => ?_⟩
  · refine (pairwise_lex (f := f) h₂.sorted fun v => ?_).imp fun {x y} hlex => ?_
    · rw [h₂.stable v]; exact h₁.sorted.filter _
    · rw [hh, hh]
      rcases hlex with hlt | ⟨heq, hle⟩
      · have hmul := Nat.mul_le_mul_right M (Nat.succ_le_of_lt hlt)
        have := hf x
        rw [Nat.succ_mul] at hmul
        omega
      · rw [heq]; omega
  · simp only [hwhole]
    rw [← List.filter_filter, ← List.filter_filter, h₂.stable, List.filter_comm, h₁.stable, List.filter_comm]

/-- The library's merge sort by `f` is the stable sort by `f`. -/
theorem mergeSort (f : α → Nat) (l : List α) :
    StableSorted f l (l.mergeSort fun x y => decide (f x ≤ f y)) := by
  have trans : ∀ a b c : α, decide (f a ≤ f b) = true → decide (f b ≤ f c) = true → decide (f a ≤ f c) = true := by
    simp only [decide_eq_true_eq]; omega
  have total : ∀ a b : α, (decide (f a ≤ f b) || decide (f b ≤ f a)) = true := by
    simp only [Bool.or_eq_true, decide_eq_true_eq]; omega
  refine ⟨(List.pairwise_mergeSort trans total l).imp fun h => by simpa using h, fun v => ?_⟩
  have hsub : (l.filter fun x => decide (f x = v)).Sublist (l.mergeSort fun x y => decide (f x ≤ f y)) := by
    refine List.sublist_mergeSort trans total (List.pairwise_of_forall_mem_list fun a ha b hb => ?_) List.filter_sublist
    have ha' := (List.mem_filter.mp ha).2
    have hb' := (List.mem_filter.mp hb).2
    simp only [decide_eq_true_eq] at ha' hb' ⊢
    omega
  have hsub' := hsub.filter fun x => decide (f x = v)
  rw [List.filter_filter] at hsub'
  simp only [Bool.and_self] at hsub'
  exact (hsub'.eq_of_length ((List.mergeSort_perm l _).filter _).length_eq.symm).symm

end StableSorted

end Sys2Proof.Machine
end

section
/-! PROOFS. What the commands leave in the key memories (40_commands.md sections 2 to 4; 41_pass_phases.md R84, R88): a
pass sorts stably by its digit, a SORT by the whole key, and the statements O44 and O46 to O50. -/

namespace Sys2Proof.Machine

/-! ## A pass sorts stably by its digit -/

/-- Every place below LEN is some key's: `p` is one to one on a finite set (R84). -/
theorem State.exists_rank_eq (s : State) {a : Nat} (ha : a < s.len.toNat) : ∃ i, i < s.len.toNat ∧ s.rank i = a := by
  have hinj : Function.Injective fun i : Fin s.len.toNat => (⟨s.rank i, s.rank_lt_len i.isLt⟩ : Fin s.len.toNat) :=
    fun i j h => Fin.ext (s.rank_injective i.isLt j.isLt (congrArg Fin.val h))
  obtain ⟨i, hi⟩ := Finite.injective_iff_surjective.mp hinj ⟨a, ha⟩
  exact ⟨i, i.isLt, congrArg Fin.val hi⟩

/-- The places of the keys with one digit, in the order of the keys, are the places that hold that digit, in order. -/
theorem State.map_rank_filter (s : State) {out : Nat → Word}
    (hout : ∀ i, i < s.len.toNat → out (s.rank i) = s.key i) (v : Nat) :
    ((List.range s.len.toNat).filter fun i => decide ((s.dig i).toNat = v)).map s.rank =
      (List.range s.len.toNat).filter fun a => decide ((digit (out a) s.round).toNat = v) := by
  have hdig : ∀ i, i < s.len.toNat → digit (out (s.rank i)) s.round = s.dig i := fun i hi => by
    rw [hout i hi, State.dig]
  refine List.Pairwise.eq_of_mem_iff (r := (· < ·)) ?_ (List.pairwise_lt_range.filter _) fun a => ?_
  · refine List.pairwise_map.mpr ((List.pairwise_lt_range.filter _).imp_of_mem fun {i j} hi hj hij => ?_)
    simp only [List.mem_filter, List.mem_range, decide_eq_true_eq] at hi hj
    exact s.rank_lt_of_dig_eq hij (BitVec.eq_of_toNat_eq (hi.2.trans hj.2.symm))
  · simp only [List.mem_map, List.mem_filter, List.mem_range, decide_eq_true_eq]
    constructor
    · rintro ⟨i, ⟨hi, hv⟩, rfl⟩
      exact ⟨s.rank_lt_len hi, by rw [hdig i hi]; exact hv⟩
    · rintro ⟨ha, hv⟩
      obtain ⟨i, hi, rfl⟩ := s.exists_rank_eq ha
      exact ⟨i, ⟨hi, by rw [← hdig i hi]; exact hv⟩, rfl⟩

/-- Keys put at their places are stably sorted by the digit of the pass. -/
theorem State.stableSorted_of_placed (s : State) {out : Nat → Word}
    (hout : ∀ i, i < s.len.toNat → out (s.rank i) = s.key i) :
    StableSorted (fun x => (digit x s.round).toNat) ((List.range s.len.toNat).map s.key)
      ((List.range s.len.toNat).map out) := by
  refine ⟨List.pairwise_map.mpr (List.pairwise_lt_range.imp_of_mem fun {a b} ha hb hab => ?_), fun v => ?_⟩
  · obtain ⟨i, hi, rfl⟩ := s.exists_rank_eq (List.mem_range.mp ha)
    obtain ⟨j, hj, rfl⟩ := s.exists_rank_eq (List.mem_range.mp hb)
    rw [hout i hi, hout j hj]
    by_contra hlt
    exact absurd (s.rank_lt_of_dig_lt hj (show s.dig j < s.dig i from Nat.lt_of_not_le hlt)) (by omega)
  · rw [List.filter_map, List.filter_map]
    refine (congrArg (List.map out) (s.map_rank_filter hout v)).symm.trans ?_
    rw [List.map_map]
    refine List.map_congr_left fun i hi => hout i ?_
    exact List.mem_range.mp (List.mem_filter.mp hi).1

theorem PassResult.stableSorted {s u : State} {r : BitVec 3} {src : Bool} (h : PassResult s r src u)
    (hlen : u.len = s.len) :
    StableSorted (fun x => (digit x r).toNat) (s.seq src) (u.seq (!src)) := by
  have hsort := (s.forPass r src).stableSorted_of_placed (out := u.wordAt (!src)) h.placed
  rw [State.seq, State.seq, hlen]
  exact hsort

/-! ## A pass under the completion of a command -/

/-- A pass does not look at what the completion of a command wrote, ROUND and SRCSEL being given to it. -/
theorem bigPass_completed (src : Bool) (r r' : BitVec 3) (src' single : Bool) (s : State) :
    bigPass src r (completed r' src' single s) = (bigPass src r s).withControl phaseIdle 0 single false true := by
  rw [bigPass_eq, bigPass_eq, ← afterClear_withControl]; rfl

theorem completed_withControl (r : BitVec 3) (src single : Bool) (s : State) (p : BitVec 3) (j : Word)
    (single' busy done : Bool) :
    completed r src single (s.withControl p j single' busy done) = completed r src single s := rfl

theorem seq_completed (r : BitVec 3) (src single : Bool) (s : State) (b : Bool) :
    (completed r src single s).seq b = s.seq b := rfl

/-- SORT and PASS complete alike but for SINGLE. -/
theorem completed_single (u : State) :
    completed 4 false true u = { completed 4 false false u with single := true } := rfl

theorem len_completed (r : BitVec 3) (src single : Bool) (s : State) : (completed r src single s).len = s.len := rfl

theorem PassReady.completed {s : State} (h : PassReady s) (r : BitVec 3) (src single : Bool) :
    PassReady (completed r src single s) :=
  ⟨h.zero, h.len_le, h.alone⟩

theorem bigPass_fault (src : Bool) (r : BitVec 3) (s : State) : (bigPass src r s).fault = s.fault := by
  obtain ⟨b0, b1, c, hc⟩ := bigPass_frame src r s
  rw [hc]

/-- A PASS after a PASS: as data, the pass after the pass, then completion. -/
theorem bigPassCommand_completed (r : BitVec 3) (src : Bool) (r' : BitVec 3) (src' single : Bool) (s : State) :
    bigPassCommand r src (completed r' src' single s) = completed (r + 1) (!src) true (bigPass src r s) := by
  rw [bigPassCommand, bigPass_completed, completed_withControl]

/-- A PASS from the completion of another command: accepted, and completed with the pass over what that one left. -/
theorem PassReady.run_pass_completed {s : State} (h : PassReady s) (hfault : s.fault = false) (r' : BitVec 3)
    (src' : Bool) {r : BitVec 3} (hr : r.toNat ≤ 3) (src : Bool) :
    exec (.pass r src) (Machine.completed r' src' true s) =
        .next ((Machine.completed r' src' true s).passStart true r src) ∧
      runSteps (2 * s.len.toNat + 515) ((Machine.completed r' src' true s).passStart true r src) =
        .next (Machine.completed (r + 1) (!src) true (Machine.bigPass src r s)) := by
  have hdone := h.completed r' src' true
  have hrun := hdone.run_pass hr src
  rw [bigPassCommand_completed, len_completed] at hrun
  exact ⟨hdone.exec_pass ⟨rfl, hfault⟩ hr src, hrun⟩

theorem PassReady.forPass {s : State} (h : PassReady s) (r : BitVec 3) (src : Bool) : PassReady (s.forPass r src) :=
  ⟨h.zero, h.len_le, h.alone⟩

/-- A pass entered over another keeps its own SRCSEL and ROUND. -/
theorem State.forPass_forPass (s : State) (r r' : BitVec 3) (src src' : Bool) :
    (s.forPass r src).forPass r' src' = s.forPass r' src' := rfl

/-- With LEN = 0 a pass writes SRCSEL and ROUND only (R88). -/
theorem PassReady.bigPass_empty {s : State} (h : PassReady s) (hlen : s.len = 0) {r : BitVec 3} (hr : r.toNat ≤ 3)
    (src : Bool) : Machine.bigPass src r s = s.forPass r src := by
  have hzero := (h.bigPass_result hr src).zero
  obtain ⟨c, hc⟩ := afterClear_frame (s.forPass r src)
  obtain ⟨c', hc'⟩ := afterPrefix_frame (s.forPass r src)
  have hscatter : afterScatter (s.forPass r src) = afterPrefix (s.forPass r src) := by
    have hempty : (afterPrefix (s.forPass r src)).len = 0 := (afterPrefix_len _).trans hlen
    rw [afterScatter_eq, bigScatter, hempty]; rfl
  rw [bigPass_eq, hc, hscatter, hc'] at hzero ⊢
  have hcnt : c = (s.forPass r src).cnt :=
    State.cnt_ext (s := s.forPass r src) (t := { s.forPass r src with cnt := c }) fun d =>
      (hzero d).trans (h.zero d).symm
  rw [hcnt]

/-! ## SORT: the four passes of its pseudocode -/

/-- `x mod 256^k`, the value of a key's `k` low digits. -/
def lowDigits (k : Nat) (x : Word) : Nat := x.toNat % 2 ^ (8 * k)

/-- One more digit: the low digits of a key are its next digit over those below. -/
theorem lowDigits_succ (r : BitVec 3) (x : Word) :
    lowDigits (r.toNat + 1) x = (digit x r).toNat * 2 ^ (8 * r.toNat) + lowDigits r.toNat x := by
  rw [lowDigits, lowDigits, digit_toNat, Nat.mul_succ, Nat.pow_add, Nat.mod_mul]
  ring

/-- A pass on digit `r` takes keys sorted by their digits below `r` to keys sorted by their digits up to `r`. -/
theorem stableSorted_lowDigits {l l₁ l₂ : List Word} {r : BitVec 3} (h₁ : StableSorted (lowDigits r.toNat) l l₁)
    (h₂ : StableSorted (fun x => (digit x r).toNat) l₁ l₂) : StableSorted (lowDigits (r.toNat + 1)) l l₂ :=
  StableSorted.comp (fun x => Nat.mod_lt x.toNat (Nat.two_pow_pos _)) (lowDigits_succ r) h₁ h₂

/-- The states between the four passes of a SORT. -/
def sortPass0 (s : State) : State := bigPass false 0 s
def sortPass1 (s : State) : State := bigPass true 1 (sortPass0 s)
def sortPass2 (s : State) : State := bigPass false 2 (sortPass1 s)
def sortPass3 (s : State) : State := bigPass true 3 (sortPass2 s)

theorem bigSort_eq (s : State) : bigSort s = completed 4 false false (sortPass3 s) := rfl

/-- What the passes of a SORT leave. -/
structure SortResult (s : State) : Prop where
  low24 : StableSorted (lowDigits 3) (s.seq false) ((sortPass3 s).seq true)
  whole : StableSorted (lowDigits 4) (s.seq false) ((sortPass3 s).seq false)
  tail : ∀ b a, s.len.toNat ≤ a → (sortPass3 s).wordAt b a = s.wordAt b a
  zero : (sortPass3 s).countersZero

/-- A pass leaves its source sequence. -/
theorem PassReady.seq_source {s : State} (h : PassReady s) {r : BitVec 3} (hr : r.toNat ≤ 3) (src : Bool) :
    (Machine.bigPass src r s).seq src = s.seq src := by
  have hbuf := (h.bigPass_result hr src).source
  obtain ⟨b0, b1, c, hc⟩ := bigPass_frame src r s
  rw [hc] at hbuf ⊢
  exact List.map_congr_left fun a _ => State.wordAt_congr hbuf rfl a

/-- Every list is sorted by no digits at all. -/
theorem stableSorted_noDigits (l : List Word) : StableSorted (lowDigits 0) l l :=
  .self (List.pairwise_of_forall_mem_list fun x _ y _ => by simp [lowDigits, Nat.mod_one])

theorem PassReady.sort_result {s : State} (h : PassReady s) : SortResult s := by
  have h0 : PassReady (sortPass0 s) := h.bigPass (r := 0) (by decide) false
  have h1 : PassReady (sortPass1 s) := h0.bigPass (r := 1) (by decide) true
  have h2 : PassReady (sortPass2 s) := h1.bigPass (r := 2) (by decide) false
  have p0 : PassResult s 0 false (sortPass0 s) := h.bigPass_result (by decide) false
  have p1 : PassResult (sortPass0 s) 1 true (sortPass1 s) := h0.bigPass_result (by decide) true
  have p2 : PassResult (sortPass1 s) 2 false (sortPass2 s) := h1.bigPass_result (by decide) false
  have p3 : PassResult (sortPass2 s) 3 true (sortPass3 s) := h2.bigPass_result (by decide) true
  have l0 : (sortPass0 s).len = s.len := bigPass_len false 0 s
  have l1 : (sortPass1 s).len = (sortPass0 s).len := bigPass_len true 1 (sortPass0 s)
  have l2 : (sortPass2 s).len = (sortPass1 s).len := bigPass_len false 2 (sortPass1 s)
  have l3 : (sortPass3 s).len = (sortPass2 s).len := bigPass_len true 3 (sortPass2 s)
  have s1 := stableSorted_lowDigits (r := 0) (stableSorted_noDigits _) (p0.stableSorted l0)
  have s2 := stableSorted_lowDigits (r := 1) s1 (p1.stableSorted l1)
  have s3 := stableSorted_lowDigits (r := 2) s2 (p2.stableSorted l2)
  have s4 := stableSorted_lowDigits (r := 3) s3 (p3.stableSorted l3)
  refine ⟨?_, s4, fun b a ha => ?_, p3.zero⟩
  · have hsrc : (sortPass3 s).seq true = (sortPass2 s).seq true := h2.seq_source (r := 3) (by decide) true
    rw [hsrc]; exact s3
  · rw [p3.tail b a (by rwa [l2, l1, l0]), p2.tail b a (by rwa [l1, l0]), p1.tail b a (by rwa [l0]), p0.tail b a ha]

theorem sortPass3_frame (s : State) :
    ∃ b0 b1 c, sortPass3 s = { s with srcsel := true, round := 3, buf0 := b0, buf1 := b1, cnt := c } := by
  obtain ⟨_, _, _, h0⟩ := bigPass_frame false 0 s
  obtain ⟨_, _, _, h1⟩ := bigPass_frame true 1 (sortPass0 s)
  obtain ⟨_, _, _, h2⟩ := bigPass_frame false 2 (sortPass1 s)
  obtain ⟨b0, b1, c, h3⟩ := bigPass_frame true 3 (sortPass2 s)
  refine ⟨b0, b1, c, ?_⟩
  rw [sortPass3, h3, sortPass2, h2, sortPass1, h1, sortPass0, h0]

/-- With LEN = 0 the four passes write SRCSEL and ROUND only (R88). -/
theorem PassReady.sortPass3_empty {s : State} (h : PassReady s) (hlen : s.len = 0) :
    sortPass3 s = s.forPass 3 true := by
  have h0 : PassReady (s.forPass 0 false) := h.forPass 0 false
  have h1 : PassReady (s.forPass 1 true) := h.forPass 1 true
  have h2 : PassReady (s.forPass 2 false) := h.forPass 2 false
  calc sortPass3 s
      = Machine.bigPass true 3 (Machine.bigPass false 2 (Machine.bigPass true 1 (s.forPass 0 false))) := by
        rw [sortPass3, sortPass2, sortPass1, sortPass0, h.bigPass_empty hlen (by decide)]
    _ = Machine.bigPass true 3 (Machine.bigPass false 2 (s.forPass 1 true)) := by
        rw [h0.bigPass_empty hlen (by decide), State.forPass_forPass]
    _ = Machine.bigPass true 3 (s.forPass 2 false) := by
        rw [h1.bigPass_empty hlen (by decide), State.forPass_forPass]
    _ = s.forPass 3 true := by rw [h2.bigPass_empty hlen (by decide), State.forPass_forPass]

/-- All four digits are the key. -/
theorem lowDigits_four (x : Word) : lowDigits 4 x = x.toNat := Nat.mod_eq_of_lt x.isLt

/-- The three low digits are the low 24 bits. -/
theorem lowDigits_three (x : Word) : lowDigits 3 x = (x.extractLsb' 0 24).toNat := by
  rw [BitVec.extractLsb'_toNat, Nat.shiftRight_zero]; rfl

/-- SORT from an idle state of the invariant: accepted, and completed with what its pseudocode gives. -/
theorem Inv.run_sort {s : State} (h : Inv s) (hidle : s.busy = false) (halone : s.alone) :
    exec .sort s = .next (s.passStart false 0 false) ∧
      runSteps (8 * s.len.toNat + 2060) (s.passStart false 0 false) = .next (bigSort s) := by
  have hpass := h.passReady hidle halone
  exact ⟨hpass.exec_sort ⟨hidle, h.no_fault.1⟩, hpass.run_sort⟩

/-! ## The statements -/

/-- Settles O44: the run is `PassReady.run_pass`; its order is that of a stable sort by the digit. -/
theorem passRearrangesByItsDigit : Obligations.PassRearrangesByItsDigit := by
  intro s r src hready hzero hlen halone hwf
  have hr := (wellFormed_pass_iff r src).mp hwf
  have hpass : PassReady s := ⟨hzero, hlen, halone⟩
  have hresult := hpass.bigPass_result hr src
  have hsort := hresult.stableSorted (bigPass_len src r s)
  obtain ⟨b0, b1, c, hc⟩ := bigPass_frame src r s
  refine ⟨_, bigPassCommand r src s, hpass.exec_pass hready hr src, hpass.run_pass hr src, ?_⟩
  rw [bigPassCommand]
  rw [hc] at hresult hsort ⊢
  exact ⟨hresult.placed, hresult.source, hresult.tail _, hsort.perm, hsort.sorted, hresult.zero, rfl⟩

/-- Settles O46: four stable passes, from the lowest digit up, sort by the whole key. -/
theorem sortSorts : Obligations.SortSorts := by
  intro s h hidle halone
  obtain ⟨hexec, hrun⟩ := h.run_sort hidle halone
  obtain ⟨-, hsort, htail, hzero⟩ := (h.passReady hidle halone).sort_result
  obtain ⟨b0, b1, c, hc⟩ := sortPass3_frame s
  refine ⟨_, bigSort s, hexec, hrun, ?_⟩
  rw [bigSort_eq]
  rw [hc] at hsort htail hzero ⊢
  refine ⟨hsort.perm, hsort.sorted.imp fun {x y} hle => ?_, htail, hzero, rfl⟩
  rwa [lowDigits_four, lowDigits_four] at hle

/-- Settles O47: after three passes the keys are stably sorted by their low 24 bits, and a stable sort is unique. -/
theorem sortLeavesLow24SortedInScratch : Obligations.SortLeavesLow24SortedInScratch := by
  intro s h hidle halone
  obtain ⟨hexec, hrun⟩ := h.run_sort hidle halone
  have hlow := (h.passReady hidle halone).sort_result.low24
  have hle : (fun x y : Word => decide (x.extractLsb' 0 24 ≤ y.extractLsb' 0 24)) =
      fun x y => decide (lowDigits 3 x ≤ lowDigits 3 y) := by
    funext x y
    rw [lowDigits_three, lowDigits_three]; rfl
  refine ⟨_, bigSort s, hexec, hrun, ?_⟩
  rw [hle, bigSort_eq, seq_completed]
  exact hlow.unique (StableSorted.mergeSort (lowDigits 3) (s.seq false))

/-- Settles O48: each PASS runs `bigPass` on what the one before left, as SORT's rounds do; the completions between
write registers no pass looks at. -/
theorem sortEqualsFourPasses : Obligations.SortEqualsFourPasses := by
  intro s h hidle halone
  obtain ⟨hexec, hrun⟩ := h.run_sort hidle halone
  have hpass := h.passReady hidle halone
  have hfault := h.no_fault.1
  have h0 : PassReady (sortPass0 s) := hpass.bigPass (r := 0) (by decide) false
  have h1 : PassReady (sortPass1 s) := h0.bigPass (r := 1) (by decide) true
  have h2 : PassReady (sortPass2 s) := h1.bigPass (r := 2) (by decide) false
  have l0 : (sortPass0 s).len = s.len := bigPass_len false 0 s
  have l1 : (sortPass1 s).len = s.len := (bigPass_len true 1 (sortPass0 s)).trans l0
  have l2 : (sortPass2 s).len = s.len := (bigPass_len false 2 (sortPass1 s)).trans l1
  have f0 : (sortPass0 s).fault = false := (bigPass_fault false 0 s).trans hfault
  have f1 : (sortPass1 s).fault = false := (bigPass_fault true 1 (sortPass0 s)).trans f0
  have f2 : (sortPass2 s).fault = false := (bigPass_fault false 2 (sortPass1 s)).trans f1
  obtain ⟨e1, r1⟩ := h0.run_pass_completed f0 1 true (r := 1) (by decide) true
  obtain ⟨e2, r2⟩ := h1.run_pass_completed f1 2 false (r := 2) (by decide) false
  obtain ⟨e3, r3⟩ := h2.run_pass_completed f2 3 true (r := 3) (by decide) true
  rw [l0] at r1
  rw [l1] at r2
  rw [l2] at r3
  have r0 : runSteps (2 * s.len.toNat + 515) (s.passStart true 0 false) = .next (completed 1 true true (sortPass0 s)) :=
    hpass.run_pass (by decide) false
  refine ⟨_, bigSort s, _, completed 1 true true (sortPass0 s), _, completed 2 false true (sortPass1 s), _,
    completed 3 true true (sortPass2 s), _, completed 4 false true (sortPass3 s), hexec, hrun,
    hpass.exec_pass ⟨hidle, hfault⟩ (by decide) false, r0, e1, r1, e2, r2, e3, r3, ?_⟩
  rw [bigSort_eq]
  exact completed_single _

/-- Settles O49: a sequence in order is its own stable sort. -/
theorem sortOfSortedChangesNothing : Obligations.SortOfSortedChangesNothing := by
  intro s h hidle halone hsorted
  obtain ⟨hexec, hrun⟩ := h.run_sort hidle halone
  have hsort := (h.passReady hidle halone).sort_result.whole
  refine ⟨_, bigSort s, hexec, hrun, ?_⟩
  rw [bigSort_eq, seq_completed]
  refine hsort.unique (.self (hsorted.imp fun {x y} hle => ?_))
  rw [lowDigits_four, lowDigits_four]; exact hle

/-- Settles O50: with LEN = 0 every pass leaves the key memories and, from zero to zero, the counters. -/
theorem emptySequenceIsANoOp : Obligations.EmptySequenceIsANoOp := by
  intro s h hidle halone hlen
  have hpass := h.passReady hidle halone
  refine ⟨?_, fun r src hwf => ?_⟩
  · obtain ⟨hexec, hrun⟩ := h.run_sort hidle halone
    rw [hlen] at hrun
    refine ⟨_, bigSort s, hexec, hrun, ?_⟩
    rw [bigSort_eq, hpass.sortPass3_empty hlen]; rfl
  · have hr := (wellFormed_pass_iff r src).mp hwf
    have hrun := hpass.run_pass hr src
    rw [hlen] at hrun
    refine ⟨_, _, hpass.exec_pass ⟨hidle, h.no_fault.1⟩ hr src, hrun, ?_⟩
    rw [bigPassCommand, hpass.bigPass_empty hlen hr]; rfl

end Sys2Proof.Machine
end
